-- ==== Sys2Proof/Word.lean ====
section
/-! DEFINITION. Word types of the block: widths only. Every function on them that a test could show wrong is
under Machine/ or in Decode. -/

namespace Sys2Proof

/-- One frame register (`10_state.md` R21). -/
abbrev Byte := BitVec 8

/-- One lane of a byte (`41_frame_codec.md` R133). -/
abbrev Nibble := BitVec 4

/-- An entry of `P`, `M` or `HOFF`, and `r12` (`00_scope.md` R5, `41_frame_codec.md` R123). -/
abbrev Word12 := BitVec 12

/-- The command word `CW[66:0]` (`30_encoding.md` R70). -/
abbrev CmdWord := BitVec 67

/-- The payload `PL`, `PL[j] = CW[j+3]` (`30_encoding.md` R70). -/
abbrev Payload := BitVec 64

/-- The eight frame registers, byte 0 first (`10_state.md` R21). -/
abbrev Frame := Vector Byte 8

end Sys2Proof
end

