-- ==== Sys2Proof/Machine/Nibbles.lean ====
section
/-! DEFINITION. Bit fields: the two nibbles of a byte and the packed operations on them (`00_scope.md` R7,
`41_frame_codec.md` R133). -/

namespace Sys2Proof.Machine

/-- `hi(b) = b[7:4]` (`00_scope.md` R7). -/
def hi (b : Byte) : Nibble := b.extractLsb' 4 4

/-- `lo(b) = b[3:0]` (`00_scope.md` R7). -/
def lo (b : Byte) : Nibble := b.extractLsb' 0 4

/-- Pack, `(x << 4) OR y`: lane 1 gets `x`, lane 0 gets `y` (`41_frame_codec.md` R133). -/
def pack (x y : Nibble) : Byte := x ++ y

/-- Lane swap: the two nibbles exchanged (`41_frame_codec.md` R133). -/
def swapLanes (b : Byte) : Byte := pack (lo b) (hi b)

/-- Lane sum of some bytes, modulo 256 (`41_frame_codec.md` R128, R133). -/
def laneSum (bs : List Byte) : Byte :=
  BitVec.ofNat 8 (bs.map fun b => (hi b).toNat + (lo b).toNat).sum

end Sys2Proof.Machine
end

