-- ==== Sys2Proof/Machine/Operands.lean ====
section
/-! DEFINITION. The temperature operand (`40_temperature_digits.md`): magnitude, integer temperature and digit, the
three BCD digits, the range check, the sign nibble. Integers are mathematical ones (R108). -/

namespace Sys2Proof.Machine

/-- `a = |T10|` (R101). -/
def magnitude (t10 : Int) : Nat := t10.natAbs

/-- `neg = (T10 < 0)` (R101). -/
def isNegative (t10 : Int) : Bool := decide (t10 < 0)

/-- `e`: the quotient by 10 with the sign restored, truncation toward zero (R102). -/
def integerTemp (a : Nat) (neg : Bool) : Int := if neg then -((a / 10 : Nat) : Int) else ((a / 10 : Nat) : Int)

/-- `d = a - q*10`, always a digit (R102, R103). -/
def decimalDigit (a : Nat) : Fin 10 := ⟨a - a / 10 * 10, by omega⟩

/-- `low = a mod 10` (R104). -/
def bcdLow (a : Nat) : Nat := a % 10

/-- `mid = (a div 10) mod 10` (R104). -/
def bcdMid (a : Nat) : Nat := a / 10 % 10

/-- `high = a div 100` (R104). -/
def bcdHigh (a : Nat) : Nat := a / 100

/-- A decimal digit as a nibble, 8-4-2-1 code (`30_encoding.md` R80). -/
def bcdNibble (n : Nat) : Nibble := BitVec.ofNat 4 n

/-- `RANGECHK` fails: `a > 999` (R105). -/
def outOfRange (a : Nat) : Bool := decide (999 < a)

/-- The sign nibble: `0x8` when `neg XOR (SIGN_POL = 1)`, else `0x0` (R106). -/
def signNibble (neg signPol : Bool) : Nibble := if neg ^^ signPol then 0x8#4 else 0x0#4

end Sys2Proof.Machine
end

