-- ==== Sys2Proof/Syntax.lean ====
section
/-! DEFINITION. The instructions: one constructor for each row of spec/opcode_table.json. -/

namespace Sys2Proof

/-- The six commands, the two reserved opcodes and the serializer tick. -/
inductive Instr where
  /-- `NOP` (`43_commands.md` R182). -/
  | nop
  /-- `ENC house, channel, temp10` (R183). `t10` is the signed integer `T10` of `30_encoding.md` R76. -/
  | enc (house : Byte) (channel : Nibble) (t10 : Int)
  /-- `LDF f0..f7` (R184). -/
  | ldf (f0 f1 f2 f3 f4 f5 f6 f7 : Byte)
  /-- `TX` (R185). -/
  | tx
  /-- `ENCTX house, channel, temp10` (R186). -/
  | enctx (house : Byte) (channel : Nibble) (t10 : Int)
  /-- `CFGW sign_pol, clamp_en` (R187). -/
  | cfgw (signPol clampEn : Bool)
  /-- Reserved opcode `0b110`, whatever the payload (R188). -/
  | reserved110 (payload : Payload)
  /-- Reserved opcode `0b111`, whatever the payload (R188). -/
  | reserved111 (payload : Payload)
  /-- `TICK`, the serializer step: not a command word (`30_encoding.md` R73, `43_commands.md` R190). -/
  | tick
  deriving DecidableEq, Repr

end Sys2Proof
end

