-- ==== Sys2Proof/WellFormed.lean ====
section
/-! DEFINITION. Which instructions are well formed: the operands the encoding can hold. -/

namespace Sys2Proof

/-- The range of an 11-bit two's complement field: `T10` in `-1024..1023` (`30_encoding.md` R76). -/
abbrev t10Fits (t10 : Int) : Prop := -1024 ≤ t10 ∧ t10 ≤ 1023

/-- Every operand has a value its field can hold. The other operands are bit vectors of their field's width. -/
def Instr.wf : Instr → Bool
  | .nop => true
  | .enc _ _ t10 => decide (t10Fits t10)
  | .ldf _ _ _ _ _ _ _ _ => true
  | .tx => true
  | .enctx _ _ t10 => decide (t10Fits t10)
  | .cfgw _ _ => true
  | .reserved110 _ => true
  | .reserved111 _ => true
  | .tick => true

/-- Whether the instruction is given by a command word: all but the serializer tick (`30_encoding.md` R73). -/
def Instr.isCommand : Instr → Bool
  | .nop => true
  | .enc _ _ _ => true
  | .ldf _ _ _ _ _ _ _ _ => true
  | .tx => true
  | .enctx _ _ _ => true
  | .cfgw _ _ => true
  | .reserved110 _ => true
  | .reserved111 _ => true
  | .tick => false

end Sys2Proof
end

