-- ==== Sys2Proof/Decode.lean ====
section
/-! DEFINITION. The command word: rows of the opcode map, operand fields, the decoder, and after it the word builders
and the encoder. -/

namespace Sys2Proof

/-- A row of the opcode map: a word selects it when `CW AND mask = pattern` (`30_encoding.md` R72). -/
structure OpRow where
  mask    : CmdWord
  pattern : CmdWord
  deriving DecidableEq, Repr

def OpRow.selects (r : OpRow) (w : CmdWord) : Bool := w &&& r.mask == r.pattern

def rowNop   : OpRow := ⟨0x7FFFFFFFFFFFFFFFF#67, 0x00000000000000000#67⟩
def rowEnc   : OpRow := ⟨0x7FFFFFFFFFC000007#67, 0x00000000000000001#67⟩
def rowLdf   : OpRow := ⟨0x00000000000000007#67, 0x00000000000000002#67⟩
def rowTx    : OpRow := ⟨0x7FFFFFFFFFFFFFFFF#67, 0x00000000000000003#67⟩
def rowEnctx : OpRow := ⟨0x7FFFFFFFFFC000007#67, 0x00000000000000004#67⟩
def rowCfgw  : OpRow := ⟨0x7FFFFFFFFFFFFFFE7#67, 0x00000000000000005#67⟩
def row110   : OpRow := ⟨0x00000000000000007#67, 0x00000000000000006#67⟩
def row111   : OpRow := ⟨0x00000000000000007#67, 0x00000000000000007#67⟩

/-- The opcode map of `30_encoding.md` R72, in its order. -/
def opcodeMap : List OpRow := [rowNop, rowEnc, rowLdf, rowTx, rowEnctx, rowCfgw, row110, row111]

/-- `op = CW[2:0]` (`30_encoding.md` R70). -/
def opField (w : CmdWord) : BitVec 3 := w.extractLsb' 0 3

/-- `PL = CW[66:3]` (`30_encoding.md` R70). -/
def payloadField (w : CmdWord) : Payload := w.extractLsb' 3 64

/-- `house = CW[10:3]` (`30_encoding.md` R76). -/
def houseField (w : CmdWord) : Byte := w.extractLsb' 3 8

/-- `channel = CW[14:11]` (`30_encoding.md` R76). -/
def channelField (w : CmdWord) : Nibble := w.extractLsb' 11 4

/-- `temp10 = CW[25:15]` (`30_encoding.md` R71). -/
def temp10Field (w : CmdWord) : BitVec 11 := w.extractLsb' 15 11

/-- `T10 = sext_11(CW[25:15])` (`30_encoding.md` R76; `sext_N` of `00_scope.md` R8). -/
def t10Operand (w : CmdWord) : Int := (temp10Field w).toInt

/-- `fi = CW[66-8i : 59-8i]` (`30_encoding.md` R77). -/
def frameField (w : CmdWord) (i : Nat) : Byte := w.extractLsb' (59 - 8 * i) 8

/-- `sign_pol = CW[3]` (`30_encoding.md` R77). -/
def signPolField (w : CmdWord) : Bool := w.getLsbD 3

/-- `clamp_en = CW[4]` (`30_encoding.md` R77). -/
def clampEnField (w : CmdWord) : Bool := w.getLsbD 4

/-- Why a word is no instruction of the table. -/
inductive DecodeReject where
  /-- A defined opcode with a reserved bit equal to 1 (`30_encoding.md` R75). -/
  | reservedBit (op : BitVec 3)
  deriving DecidableEq, Repr

/-- The decoder, total on every 67-bit word (`30_encoding.md` R72). A word that selects no row has a defined opcode
and a reserved bit set: it is rejected by that name, and the step raises `IllegalCommand` for it (log 8). -/
def decode (w : CmdWord) : Except DecodeReject Instr :=
  if rowNop.selects w then .ok .nop
  else if rowEnc.selects w then .ok (.enc (houseField w) (channelField w) (t10Operand w))
  else if rowLdf.selects w then
    .ok (.ldf (frameField w 0) (frameField w 1) (frameField w 2) (frameField w 3)
      (frameField w 4) (frameField w 5) (frameField w 6) (frameField w 7))
  else if rowTx.selects w then .ok .tx
  else if rowEnctx.selects w then .ok (.enctx (houseField w) (channelField w) (t10Operand w))
  else if rowCfgw.selects w then .ok (.cfgw (signPolField w) (clampEnField w))
  else if row110.selects w then .ok (.reserved110 (payloadField w))
  else if row111.selects w then .ok (.reserved111 (payloadField w))
  else .error (.reservedBit (opField w))

/-- Format N: reserved bits 0 (`30_encoding.md` R71). -/
def wordN (op : BitVec 3) : CmdWord := 0#64 ++ op

/-- Format E: reserved, `temp10`, `channel`, `house`, `op` (`30_encoding.md` R71). -/
def wordE (op : BitVec 3) (house : Byte) (channel : Nibble) (t10 : Int) : CmdWord :=
  0#41 ++ BitVec.ofInt 11 t10 ++ channel ++ house ++ op

/-- Format F: `f0` in the most significant place (`30_encoding.md` R71). -/
def wordF (op : BitVec 3) (f0 f1 f2 f3 f4 f5 f6 f7 : Byte) : CmdWord :=
  f0 ++ f1 ++ f2 ++ f3 ++ f4 ++ f5 ++ f6 ++ f7 ++ op

/-- Format C: reserved, `clamp_en`, `sign_pol`, `op` (`30_encoding.md` R71). -/
def wordC (op : BitVec 3) (signPol clampEn : Bool) : CmdWord :=
  0#62 ++ BitVec.ofBool clampEn ++ BitVec.ofBool signPol ++ op

/-- A word of a reserved opcode: the payload is ignored (`30_encoding.md` R72). -/
def wordReserved (op : BitVec 3) (payload : Payload) : CmdWord := payload ++ op

/-- The command word of an instruction; the tick has none (`30_encoding.md` R73). -/
def encode : Instr → Option CmdWord
  | .nop => some (wordN 0b000#3)
  | .enc house channel t10 => some (wordE 0b001#3 house channel t10)
  | .ldf f0 f1 f2 f3 f4 f5 f6 f7 => some (wordF 0b010#3 f0 f1 f2 f3 f4 f5 f6 f7)
  | .tx => some (wordN 0b011#3)
  | .enctx house channel t10 => some (wordE 0b100#3 house channel t10)
  | .cfgw signPol clampEn => some (wordC 0b101#3 signPol clampEn)
  | .reserved110 payload => some (wordReserved 0b110#3 payload)
  | .reserved111 payload => some (wordReserved 0b111#3 payload)
  | .tick => none

/-- The number `w` of an instruction of `nbits` bits as a word on the `cmd` port: bits above `nbits` are 0. -/
def tableWord (nbits w : Nat) : Nat := w % 2 ^ nbits

/-- The instruction of a table row's number: what the decoder reads from the word. The one row without any bits is
the serializer tick's (`30_encoding.md` R73); a number with a bit above 66 is no command word (log 10). -/
def decodeTableWord (nbits w : Nat) : Option Instr :=
  if nbits = 0 then some .tick
  else if tableWord nbits w < 2 ^ 67 then (decode (BitVec.ofNat 67 (tableWord nbits w))).toOption
  else none

end Sys2Proof
end

