-- ==== Sys2Proof/Config.lean ====
section
/-! DEFINITION. What is fixed when the block is built (`00_scope.md` R5, R6), what a host drives (`10_state.md` R30),
and the values the spec leaves OPEN: opaque constants without a body, of which nothing can be proved. -/

namespace Sys2Proof

/-- The input ports sampled at one rising edge of `clk` (`10_state.md` R30). -/
structure PortIn where
  rst      : Bool
  cmdValid : Bool
  cmd      : CmdWord
  txEn     : Bool
  deriving DecidableEq, Repr, Inhabited

/-- The parameters of `00_scope.md` R5 as plain data. `M` and `HOFF` are partial maps: a list of key and value, an
absent key being an absent entry. `PRE_LEN` is the length of `preamble`. -/
structure Params where
  /-- `P`, ten entries, all present. -/
  p            : Vector Word12 10
  /-- `M`, by signed integer temperature. -/
  m            : List (Int × Word12)
  /-- `HOFF`, by house code. -/
  hoff         : List (Byte × Word12)
  refHouse     : Byte
  /-- `PREAMBLE`, physical bits, entry 0 first on the wire. -/
  preamble     : List Bool
  signPolReset : Bool
  deriving DecidableEq, Repr

/-- The canonical form of the tables and the constraints of `00_scope.md` R6: keys strictly rising, `dom(M)` inside
`-99..99` (`20_memory.md` R52), `PRE_LEN <= 127`. -/
abbrev Params.wf (q : Params) : Prop :=
  q.m.Pairwise (fun a b => a.1 < b.1) ∧ (∀ x ∈ q.m, -99 ≤ x.1 ∧ x.1 ≤ 99) ∧
  q.hoff.Pairwise (fun a b => a.1 < b.1) ∧ q.preamble.length ≤ 127

namespace Config

/-- OPEN: the ten entries of `P` (`91_not_in_source.md` N1; log 1). -/
opaque p : Fin 10 → Word12

/-- OPEN: `M`; only its values at `-99..99` are used (`91_not_in_source.md` N2; log 1). -/
opaque m : Int → Option Word12

/-- OPEN: `HOFF` (`91_not_in_source.md` N3; log 1). -/
opaque hoff : Byte → Option Word12

/-- OPEN: `REF_HOUSE` (`91_not_in_source.md` N3; log 1). -/
opaque refHouse : Byte

/-- OPEN: `PRE_LEN`, at most 127 (`00_scope.md` R6; `91_not_in_source.md` N4; log 1). -/
opaque preLen : Fin 128

/-- OPEN: `PREAMBLE`; only its values below `PRE_LEN` are used (`91_not_in_source.md` N4; log 1). -/
opaque preamble : Nat → Bool

/-- OPEN: `SIGN_POL_RESET` (`91_not_in_source.md` N10; log 1). -/
opaque signPolReset : Bool

/-- FREE VALUE: what the host drives at an edge for which `State.inputs` holds no sample (`00_scope.md` R10: the host
"is free to choose anything"; log 2). -/
opaque hostInput : Nat → PortIn

/-- The OPEN parameters tabulated as plain data, in canonical form. -/
def params : Params where
  p := Vector.ofFn p
  m := (List.range 199).filterMap fun k : Nat => (m ((k : Int) - 99)).map fun v => ((k : Int) - 99, v)
  hoff := (List.range 256).filterMap fun k : Nat => (hoff (BitVec.ofNat 8 k)).map fun v => (BitVec.ofNat 8 k, v)
  refHouse := refHouse
  preamble := (List.range preLen.val).map preamble
  signPolReset := signPolReset

end Config

end Sys2Proof
end

