-- ==== Sys2Proof/Machine/State.lean ====
section
/-! DEFINITION. The state of the block (`10_state.md` R20) with the model's own fields beside it, the reasons a step
can stop, and the state after reset. -/

namespace Sys2Proof.Machine

/-- Faults of a step: none. An error of the block is a code in `ERR` and the machine goes on (`60_exceptions.md` R220,
R231); the block never halts (`43_commands.md` R196). -/
inductive Fault where
  deriving DecidableEq, Repr

/-- Refusals of a step. -/
inductive Refusal where
  /-- An instruction without a meaning yet, raised by an arm of `exec` only; safe. No arm raises it. -/
  | notModelled (mnemonic : String)
  deriving DecidableEq, Repr

/-- The block's typed errors (`60_exceptions.md` R221). An argument is the `info` of `raise E(info)` (`00_scope.md`
R8): it names the offending value for the reader and is not recorded. -/
inductive BlockError where
  /-- Code 1, never raised by the block (R222). -/
  | decomposition (d : Nat)
  /-- Code 2 (R223). -/
  | lookup (e : Int)
  /-- Code 3 (R224). -/
  | range (t10 : Int)
  /-- Code 4 (R225). -/
  | house (h : Byte)
  /-- Code 5 (R226). -/
  | noFrame
  /-- Code 6 (R227). -/
  | illegalCommand (w : CmdWord)
  deriving DecidableEq, Repr

/-- What an edge does (`43_commands.md` R180, `60_exceptions.md` R230). -/
inductive EdgeArm where
  /-- `rst = 1`. -/
  | reset
  /-- `BUSY = 1` and `tx_en = 1`. -/
  | tick
  /-- `BUSY = 1` and `tx_en = 0`. -/
  | hold
  /-- An accepted command word (R181). -/
  | command (w : CmdWord)
  /-- `BUSY = 0` and no command. -/
  | idle
  deriving DecidableEq, Repr

/-- The output ports (`10_state.md` R31). -/
structure PortOut where
  cmdReady : Bool
  busy     : Bool
  done     : Bool
  fvalid   : Bool
  err      : BitVec 3
  cfg      : BitVec 2
  frameOut : BitVec 64
  txValid  : Bool
  txBit    : Bool
  txLast   : Bool
  deriving DecidableEq, Repr

/-- The state. The first eight fields are `S` of `10_state.md` R20, whole; the others are the model's own. -/
structure State where
  /-- `FRAME[0..7]` (R21, R22). -/
  frame   : Frame
  /-- `FVALID` (R26). -/
  fvalid  : Bool
  /-- `BUSY` (R24). -/
  busy    : Bool
  /-- `DONE` (R25). -/
  done    : Bool
  /-- `POS` (R23). -/
  pos     : BitVec 8
  /-- `ERR` (R29). -/
  err     : BitVec 3
  /-- `CFG.SIGN_POL` (R27). -/
  signPol : Bool
  /-- `CFG.CLAMP_EN` (R27). -/
  clampEn : Bool
  /-- The parameters of `00_scope.md` R5, changed by no step (log 1). -/
  params  : Params
  /-- The samples the input ports show at the next edges, first one first (R30; log 2). -/
  inputs  : List PortIn
  /-- How many free host samples have been taken (log 2). -/
  draws   : Nat
  /-- The emitted trace, first bit first (`43_commands.md` R194; log 3). -/
  trace   : List Bool
  deriving DecidableEq, Repr

/-- Eight zero bytes. -/
def zeroFrame : Frame := #v[0#8, 0#8, 0#8, 0#8, 0#8, 0#8, 0#8, 0#8]

/-- The state after a step with `rst = 1` (`10_state.md` R34), with the OPEN parameters, nothing driven and nothing
emitted. -/
def State.reset : State where
  frame := zeroFrame
  fvalid := false
  busy := false
  done := false
  pos := 0#8
  err := 0#3
  signPol := Config.params.signPolReset
  clampEn := false
  params := Config.params
  inputs := []
  draws := 0
  trace := []

end Sys2Proof.Machine
end

