-- ==== Sys2Proof/Machine/Ops.lean ====
section
/-! DEFINITION. The shared operations: table reads, frame writes, reset, error entry, and the two ends of the ports
(taking an input sample, emitting a bit). -/

namespace Sys2Proof.Machine

/-! ### The read-only tables (`20_memory.md` R50 to R56) -/

/-- `MemRead(PROM[d], 12)`: all ten entries are present (`20_memory.md` R51). -/
def readProm (q : Params) (d : Fin 10) : Word12 := q.p[d]

/-- `MemRead(MROM[e], 12)`, none where `present(MROM[e])` is false (`20_memory.md` R52). -/
def readMrom (q : Params) (e : Int) : Option Word12 := q.m.lookup e

/-- The entry at `M_MIN`, the least member of `dom(M)`: the first of the rising keys (`00_scope.md` R6). -/
def firstMrom (q : Params) : Option (Int × Word12) := q.m.head?

/-- The entry at `M_MAX`, the greatest member of `dom(M)`: the last of the rising keys (`00_scope.md` R6). -/
def lastMrom (q : Params) : Option (Int × Word12) := q.m.getLast?

/-- `MemRead(HROM[h], 12)`, none where `present(HROM[h])` is false (`20_memory.md` R53). -/
def readHrom (q : Params) (h : Byte) : Option Word12 := q.hoff.lookup h

/-- `MemRead(PREROM[k], 1)`, none at `k >= PRE_LEN` (`20_memory.md` R54). -/
def readPrerom (q : Params) (k : Nat) : Option Bool := q.preamble[k]?

/-- `PRE_LEN` (`00_scope.md` R5). -/
def preLen (q : Params) : Nat := q.preamble.length

/-- `TOTAL = PRE_LEN + 128` (`00_scope.md` R6). -/
def total (q : Params) : Nat := preLen q + 128

/-! ### Frame registers -/

/-- A message into `FRAME`: all eight registers, `FVALID <- 1`, `ERR <- 0` (`43_commands.md` R183, R184). -/
def State.loadFrame (F : Frame) (s : State) : State := { s with frame := F, fvalid := true, err := 0#3 }

/-- No message left: eight zero bytes, `FVALID <- 0` (`60_exceptions.md` R231). -/
def State.dropFrame (s : State) : State := { s with frame := zeroFrame, fvalid := false }

/-! ### Reset -/

/-- An edge with `rst = 1` (`70_reset_and_hazards.md` R250): the values of `10_state.md` R34. The parameters are not
touched (R251) and the bits already emitted stand (R252). -/
def State.resetBlock (s : State) : State :=
  { s with
    frame := zeroFrame, fvalid := false, busy := false, done := false, pos := 0#8, err := 0#3,
    signPol := s.params.signPolReset, clampEn := false }

/-! ### Errors -/

/-- The code written to `ERR` (`60_exceptions.md` R221). -/
def BlockError.code : BlockError → BitVec 3
  | .decomposition _ => 1#3
  | .lookup _ => 2#3
  | .range _ => 3#3
  | .house _ => 4#3
  | .noFrame => 5#3
  | .illegalCommand _ => 6#3

/-- Error entry, `raise E(info)` (`00_scope.md` R8, `60_exceptions.md` R231): `ERR <- code(E)`, and an error of the
codec leaves no frame. `TX` and `ENCTX` have cleared `DONE` before they raise. Nothing is saved anywhere, and there is
no return: `ERR` keeps its value until the next accepted command but `NOP` (R233). The error `DecompositionError` is
never raised (R222; log 7). -/
def State.raise (E : BlockError) (s : State) : State :=
  match E with
  | .decomposition _ => { s.dropFrame with err := E.code }
  | .lookup _ => { s.dropFrame with err := E.code }
  | .range _ => { s.dropFrame with err := E.code }
  | .house _ => { s.dropFrame with err := E.code }
  | .noFrame => { s with err := E.code }
  | .illegalCommand _ => { s with err := E.code }

/-- An accepted word that is no command: `raise IllegalCommand(CW)` (`43_commands.md` R188). -/
def State.raiseIllegal (w : CmdWord) (s : State) : State := s.raise (.illegalCommand w)

/-! ### Ports -/

/-- `emit(b)` (`00_scope.md` R8, `43_commands.md` R194). -/
def State.emit (b : Bool) (s : State) : State := { s with trace := s.trace ++ [b] }

/-- The input ports at the next edge: the host's next sample, or a free one (log 2). -/
def nextInput (s : State) : PortIn :=
  match s.inputs with
  | [] => Config.hostInput s.draws
  | i :: _ => i

/-- The sample is taken. -/
def State.popInput (s : State) : State :=
  match s.inputs with
  | [] => { s with draws := s.draws + 1 }
  | _ :: rest => { s with inputs := rest }

/-- A sample with a command word on the port: `rst = 0`, `cmd_valid = 1` (`30_encoding.md` R88). -/
def commandEdge (w : CmdWord) (txEn : Bool) : PortIn := { rst := false, cmdValid := true, cmd := w, txEn := txEn }

/-- An edge without a command. The word on `cmd` is ignored there (`10_state.md` R30; log 12). -/
def plainEdge (txEn : Bool) : PortIn := { rst := false, cmdValid := false, cmd := 0#67, txEn := txEn }

/-- `w` presented at the next edge in place of the sample that stood there, to a block that can accept it
(`43_commands.md` R181: `rst = 0`, `BUSY = 0`, `cmd_valid = 1`; `POS = 0` goes with `BUSY = 0`). Not a step of the
machine (log 4). -/
def State.presentWord (w : CmdWord) (s : State) : State :=
  { s with busy := false, pos := 0#8, inputs := commandEdge w false :: s.inputs.tail }

/-- The serializer strobe presented at the next edge to a block in a transmission, which is what selects the tick
(`30_encoding.md` R73: `BUSY = 1` and `tx_en = 1`). Not a step of the machine (log 4). -/
def State.presentTick (s : State) : State :=
  { s with busy := true, inputs := plainEdge true :: s.inputs.tail }

end Sys2Proof.Machine
end

