-- ==== Sys2Proof/Machine/Codec.lean ====
section
/-! DEFINITION. The frame codec (`41_frame_codec.md`): index selection, house offset, `r12`, the eight bytes,
`FRAMEGEN`. Pure functions of the operands, `CFG` and the parameters (R132). -/

namespace Sys2Proof.Machine

/-- `MIDX`: the selected index `ei` with its entry (R121). Only the index is clamped, and only beyond an end of the
table. -/
def selectM (q : Params) (clampEn : Bool) (e : Int) : Except BlockError (Int × Word12) :=
  match readMrom q e with
  | some v => .ok (e, v)
  | none =>
    if clampEn then
      match firstMrom q, lastMrom q with
      | some first, some last =>
        if e < first.1 then .ok first else if last.1 < e then .ok last else .error (.lookup e)
      | _, _ => .error (.lookup e)
    else .error (.lookup e)

/-- `HOFFSEL` (R122). -/
def houseOffset (q : Params) (house : Byte) : Except BlockError Word12 :=
  match readHrom q house with
  | some off => .ok off
  | none => if house = q.refHouse then .ok 0x000#12 else .error (.house house)

/-- `R12`: the exclusive or of the `M` entry, the `P` entry and the offset (R123). -/
def r12Of (mEntry pEntry off : Word12) : Word12 := mEntry ^^^ pEntry ^^^ off

/-- `(r12 >> 8) AND 0xF` (R126). -/
def r12High (r12 : Word12) : Nibble := r12.extractLsb' 8 4

/-- `r12 AND 0xFF` (R130). -/
def r12Low (r12 : Word12) : Byte := r12.extractLsb' 0 8

/-- Byte 2: channel and house low nibble (R125). -/
def byte2 (house : Byte) (channel : Nibble) : Byte := pack channel (lo house)

/-- Byte 3: house high nibble and `r12` high nibble (R126). -/
def byte3 (house : Byte) (r12 : Word12) : Byte := pack (hi house) (r12High r12)

/-- Byte 4: the digits of weight 0.1 and 1 degree (R127). -/
def byte4 (a : Nat) : Byte := pack (bcdNibble (bcdLow a)) (bcdNibble (bcdMid a))

/-- Byte 5: the digit of weight 10 degrees and the sign nibble (R127). -/
def byte5 (a : Nat) (sign : Nibble) : Byte := pack (bcdNibble (bcdHigh a)) sign

/-- Byte 6 from the nibble sum `s`: its halves swapped (R129). -/
def byte6 (s : Byte) : Byte := swapLanes s

/-- The eight bytes from bytes 2 to 5 and `r12`: marker `0xEC40` (R124), the checksum byte over bytes 0 to 5 (R128,
R129), `r12` low byte (R130). -/
def frameOf (b2 b3 b4 b5 : Byte) (r12 : Word12) : Frame :=
  #v[0xEC#8, 0x40#8, b2, b3, b4, b5, byte6 (laneSum [0xEC#8, 0x40#8, b2, b3, b4, b5]), r12Low r12]

/-- The message of a reading whose checks have passed (R131, the lines after the checks). -/
def messageOf (signPol : Bool) (house : Byte) (channel : Nibble) (t10 : Int) (r12 : Word12) : Frame :=
  frameOf (byte2 house channel) (byte3 house r12) (byte4 (magnitude t10))
    (byte5 (magnitude t10) (signNibble (isNegative t10) signPol)) r12

/-- `FRAMEGEN`: the first check that fails decides the error (R131). -/
def frameGen (q : Params) (signPol clampEn : Bool) (house : Byte) (channel : Nibble) (t10 : Int) :
    Except BlockError Frame :=
  if outOfRange (magnitude t10) then .error (.range t10)
  else
    match selectM q clampEn (integerTemp (magnitude t10) (isNegative t10)) with
    | .error E => .error E
    | .ok sel =>
      match houseOffset q house with
      | .error E => .error E
      | .ok off =>
        .ok (messageOf signPol house channel t10
          (r12Of sel.2 (readProm q (decimalDigit (magnitude t10))) off))

/-- `FRAMEGEN` with the configuration and the parameters the state holds (`43_commands.md` R183). -/
def State.reading (s : State) (house : Byte) (channel : Nibble) (t10 : Int) : Except BlockError Frame :=
  frameGen s.params s.signPol s.clampEn house channel t10

end Sys2Proof.Machine
end

