-- ==== Sys2Proof/Machine/Flags.lean ====
section
/-! DEFINITION. The flags of a transmission: how `BUSY`, `DONE` and `POS` move (`10_state.md` R23 to R25), and the
`STATUS` view (R28). -/

namespace Sys2Proof.Machine

/-- `DONE <- 0`, at every accepted `TX` and `ENCTX` (`10_state.md` R25). -/
def State.clearDone (s : State) : State := { s with done := false }

/-- A transmission starts: `BUSY <- 1`, `POS <- 0`, `ERR <- 0` (`43_commands.md` R185, R186). -/
def State.startTx (s : State) : State := { s with busy := true, pos := 0#8, err := 0#3 }

/-- The last bit is out: `BUSY <- 0`, `DONE <- 1`, `POS <- 0` (`43_commands.md` R190). -/
def State.finishTx (s : State) : State := { s with busy := false, done := true, pos := 0#8 }

/-- `POS <- POS + 1` (`43_commands.md` R190). -/
def State.advance (s : State) : State := { s with pos := s.pos + 1#8 }

/-- The last bit is the next one: `POS = TOTAL - 1`. At `POS >= TOTAL`, which no run reaches, the same branch is
taken (`43_commands.md` R190; log 5). -/
def atLastBit (s : State) : Bool := decide (total s.params - 1 ≤ s.pos.toNat)

/-- `STATUS`: `BUSY`, `DONE`, `FVALID` in bits 0, 1, 2 and `ERR` in bits 5:3 (`10_state.md` R28). -/
def statusView (s : State) : BitVec 6 :=
  s.err ++ BitVec.ofBool s.fvalid ++ BitVec.ofBool s.done ++ BitVec.ofBool s.busy

end Sys2Proof.Machine
end

