-- ==== Sys2Proof/Machine/Commands.lean ====
section
/-! DEFINITION. The host commands (`43_commands.md` R182 to R188): what each does once it is accepted. -/

namespace Sys2Proof.Machine

/-- The outcome of `FRAMEGEN` into the frame registers: the message, or the error (R183). -/
def State.storeReading (r : Except BlockError Frame) (s : State) : State :=
  match r with
  | .ok F => s.loadFrame F
  | .error E => s.raise E

/-- `NOP` (R182): nothing, `ERR` kept. -/
def execNop (s : State) : Host.Outcome State Fault Refusal := .next s

/-- `ENC house, channel, temp10` (R183). -/
def execEnc (house : Byte) (channel : Nibble) (t10 : Int) (s : State) : Host.Outcome State Fault Refusal :=
  .next (s.storeReading (s.reading house channel t10))

/-- `LDF f0..f7` (R184): no check of the content. -/
def execLdf (f0 f1 f2 f3 f4 f5 f6 f7 : Byte) (s : State) : Host.Outcome State Fault Refusal :=
  .next (s.loadFrame #v[f0, f1, f2, f3, f4, f5, f6, f7])

/-- `TX` (R185): start, or `NoFrame` when `FVALID = 0`. -/
def execTx (s : State) : Host.Outcome State Fault Refusal :=
  .next (if s.fvalid then s.clearDone.startTx else s.clearDone.raise .noFrame)

/-- The outcome of `FRAMEGEN` into the frame registers and, on a message, the start of its transmission (R186). -/
def State.sendReading (r : Except BlockError Frame) (s : State) : State :=
  match r with
  | .ok F => (s.loadFrame F).startTx
  | .error E => s.raise E

/-- `ENCTX house, channel, temp10` (R186). -/
def execEnctx (house : Byte) (channel : Nibble) (t10 : Int) (s : State) : Host.Outcome State Fault Refusal :=
  .next (s.clearDone.sendReading (s.reading house channel t10))

/-- `CFGW sign_pol, clamp_en` (R187): both fields, `ERR <- 0`. -/
def execCfgw (signPol clampEn : Bool) (s : State) : Host.Outcome State Fault Refusal :=
  .next { s with signPol := signPol, clampEn := clampEn, err := 0#3 }

/-- Reserved opcode `0b110` (R188): `IllegalCommand`. -/
def execReserved110 (payload : Payload) (s : State) : Host.Outcome State Fault Refusal :=
  .next (s.raiseIllegal (wordReserved 0b110#3 payload))

/-- Reserved opcode `0b111` (R188): `IllegalCommand`. -/
def execReserved111 (payload : Payload) (s : State) : Host.Outcome State Fault Refusal :=
  .next (s.raiseIllegal (wordReserved 0b111#3 payload))

end Sys2Proof.Machine
end

