-- ==== Sys2Proof/Machine/Bitstream.lean ====
section
/-! DEFINITION. The bitstream encoder (`42_bitstream_encoder.md`): nibble reflection, bit expansion, Manchester
mapping, preamble prefix, and the closed form of one bit. It does not look at what the eight bytes mean (R150). -/

namespace Sys2Proof.Machine

/-- `REFLECT` (R151). -/
def reflect (b : Byte) : Byte := swapLanes b

/-- `EXPAND`: eight logical bits, least significant first (R152). -/
def expand (r : Byte) : List Bool :=
  [r.getLsbD 0, r.getLsbD 1, r.getLsbD 2, r.getLsbD 3, r.getLsbD 4, r.getLsbD 5, r.getLsbD 6, r.getLsbD 7]

/-- `LOGICAL`: the 64 logical bits, byte 0 first (R153). -/
def logical (F : Frame) : List Bool := F.toList.flatMap fun b => expand (reflect b)

/-- `MANCH`: `0` is `1,0` and `1` is `0,1` (R154, `30_encoding.md` R82). -/
def manch (b : Bool) : List Bool := [!b, b]

/-- `PAYLOAD`: the 128 physical bits (R155). -/
def payload (F : Frame) : List Bool := (logical F).flatMap manch

/-- `BS`: the preamble, already physical, then the payload (R156). -/
def bitstream (q : Params) (F : Frame) : List Bool := q.preamble ++ payload F

/-- `L(i,j)`: logical bit `j` of byte `i` read from the frame byte (`30_encoding.md` R83). -/
def logicalBit (b : Byte) (j : Nat) : Bool := if j < 4 then b.getLsbD (j + 4) else b.getLsbD (j - 4)

/-- The payload part of `BSBIT` at `m = k - PRE_LEN`, `m < 128` (R157). -/
def payloadBit (F : Frame) (m : Nat) (h : m < 128) : Bool :=
  if m % 2 = 0 then !(logicalBit (F[m / 16]'(by omega)) (m % 16 / 2))
  else logicalBit (F[m / 16]'(by omega)) (m % 16 / 2)

/-- `BSBIT(F, k)` (R157). At `k >= TOTAL`, which no run reaches, 0 (`43_commands.md` R190; log 5). -/
def bsBit (q : Params) (F : Frame) (k : Nat) : Bool :=
  match readPrerom q k with
  | some b => b
  | none => if h : k - preLen q < 128 then payloadBit F (k - preLen q) h else false

/-! ### The inverse of the mapping (R160), which the block does not implement -/

/-- The second symbol of every aligned pair. -/
def secondSymbols : List Bool → List Bool
  | _ :: b :: rest => b :: secondSymbols rest
  | _ => []

/-- A byte from eight bits, least significant first. -/
def byteOfBits (bs : List Bool) : Byte := (BitVec.ofBoolListLE bs).setWidth 8

/-- The frame of 128 payload bits: second symbols, groups of eight, least significant first, reflected again. -/
def frameOfPayload (bits : List Bool) : Frame :=
  Vector.ofFn fun i : Fin 8 => reflect (byteOfBits (((secondSymbols bits).drop (8 * i.val)).take 8))

end Sys2Proof.Machine
end

