-- ==== Sys2Proof/Machine/Serializer.lean ====
section
/-! DEFINITION. The serializer step (`43_commands.md` R190). -/

namespace Sys2Proof.Machine

/-- `TICK` (R190): emit `BSBIT(FRAME, POS)`, then end the transmission or go to the next bit. -/
def execTick (s : State) : Host.Outcome State Fault Refusal :=
  .next ((if atLastBit s then s.finishTx else s.advance).emit (bsBit s.params s.frame s.pos.toNat))

end Sys2Proof.Machine
end

