-- ==== Sys2Proof/Machine/Dispatch.lean ====
section
/-! DEFINITION. One arm for each constructor of Instr. -/

namespace Sys2Proof.Machine

def exec (i : Instr) (s : State) : Host.Outcome State Fault Refusal :=
  match i with
  | .nop => Sys2Proof.Machine.execNop s
  | .enc house channel t10 => Sys2Proof.Machine.execEnc house channel t10 s
  | .ldf f0 f1 f2 f3 f4 f5 f6 f7 => Sys2Proof.Machine.execLdf f0 f1 f2 f3 f4 f5 f6 f7 s
  | .tx => Sys2Proof.Machine.execTx s
  | .enctx house channel t10 => Sys2Proof.Machine.execEnctx house channel t10 s
  | .cfgw signPol clampEn => Sys2Proof.Machine.execCfgw signPol clampEn s
  | .reserved110 payload => Sys2Proof.Machine.execReserved110 payload s
  | .reserved111 payload => Sys2Proof.Machine.execReserved111 payload s
  | .tick => Sys2Proof.Machine.execTick s

end Sys2Proof.Machine
end

