-- ==== Sys2Proof/Machine/Edge.lean ====
section
/-! DEFINITION. One rising edge of `clk` for given input ports (`43_commands.md` R180): which arm is taken, and what
it does. -/

namespace Sys2Proof.Machine

/-- Which arm: reset, then the serializer, then a command (`43_commands.md` R180, R181; `60_exceptions.md` R230). -/
def edgeArm (i : PortIn) (s : State) : EdgeArm :=
  if i.rst then .reset
  else if s.busy then (if i.txEn then .tick else .hold)
  else if i.cmdValid then .command i.cmd
  else .idle

/-- An accepted word: the instruction it decodes to, or `IllegalCommand` (`43_commands.md` R181, R188). -/
def acceptWord (w : CmdWord) (s : State) : Host.Outcome State Fault Refusal :=
  match decode w with
  | .ok i => exec i s
  | .error _ => .next (s.raiseIllegal w)

/-- `Step(S, In)` (`43_commands.md` R180). -/
def stepEdge (i : PortIn) (s : State) : Host.Outcome State Fault Refusal :=
  match edgeArm i s with
  | .reset => .next s.resetBlock
  | .tick => exec .tick s
  | .hold => .next s
  | .command w => acceptWord w s
  | .idle => .next s

end Sys2Proof.Machine
end

