-- ==== Sys2Proof/Machine/Step.lean ====
section
/-! DEFINITION. The step of the machine: the next input sample is taken and the edge happens. -/

namespace Sys2Proof.Machine

/-- One rising edge (`00_scope.md` R10). -/
def step (s : State) : Host.Outcome State Fault Refusal := stepEdge (nextInput s) s.popInput

/-- `s` with the row's word on the `cmd` port at the next edge, and able to accept it; for the row without bits, in a
transmission with the strobe on (log 4, log 10). -/
def State.withFetchWord (s : State) (nbits w : Nat) : State :=
  if nbits = 0 then s.presentTick else s.presentWord (BitVec.ofNat 67 (tableWord nbits w))

end Sys2Proof.Machine
end

