-- ==== Sys2Proof/Machine/Ports.lean ====
section
/-! DEFINITION. The output ports, each a function of the state alone (`10_state.md` R31). -/

namespace Sys2Proof.Machine

/-- `frame_out`: `FRAME[0]` in bits 63:56, `FRAME[7]` in bits 7:0. -/
def frameOut (F : Frame) : BitVec 64 := F[0] ++ F[1] ++ F[2] ++ F[3] ++ F[4] ++ F[5] ++ F[6] ++ F[7]

/-- `tx_bit`: `BS(FRAME)[POS]` while `BUSY = 1`, else 0. -/
def txBit (s : State) : Bool := s.busy && bsBit s.params s.frame s.pos.toNat

/-- `tx_last`: `BUSY = 1` and `POS = TOTAL - 1`. -/
def txLast (s : State) : Bool := s.busy && decide (s.pos.toNat = total s.params - 1)

/-- All output ports. -/
def outputs (s : State) : PortOut where
  cmdReady := !s.busy
  busy := s.busy
  done := s.done
  fvalid := s.fvalid
  err := s.err
  cfg := BitVec.ofBool s.clampEn ++ BitVec.ofBool s.signPol
  frameOut := frameOut s.frame
  txValid := s.busy
  txBit := txBit s
  txLast := txLast s

end Sys2Proof.Machine
end

