-- ==== Sys2Proof/Machine/Render.lean ====
section
/-! DEFINITION. The host's text of a frame and of a bit sequence (`30_encoding.md` R79, R87). No port carries text. -/

namespace Sys2Proof.Machine

/-- A hexadecimal digit, `0-9A-F`. -/
def hexDigit (n : Nibble) : Char :=
  if n.toNat < 10 then Char.ofNat (48 + n.toNat) else Char.ofNat (55 + n.toNat)

/-- Sixteen digits, byte 0 first, high nibble first (R79). -/
def frameText (F : Frame) : List Char := F.toList.flatMap fun b => [hexDigit (hi b), hexDigit (lo b)]

/-- Four bits a digit, the earlier bit more significant; no text when the length is not a multiple of 4 (R87). -/
def bitsText : List Bool → Option (List Char)
  | [] => some []
  | a :: b :: c :: d :: rest =>
    (bitsText rest).map fun t =>
      hexDigit (BitVec.ofBool a ++ BitVec.ofBool b ++ BitVec.ofBool c ++ BitVec.ofBool d) :: t
  | _ => none

end Sys2Proof.Machine
end

