-- ==== Sys2Proof/Machine/Script.lean ====
section
/-! DEFINITION. The script notation of test programs and its pseudo-instructions (`30_encoding.md` R88, R89): which
input samples a line drives. Notation of the host; the block knows nothing of it. -/

namespace Sys2Proof.Machine

/-- A script line (R88). A command line with `+EN` has `txEn = true`. -/
inductive ScriptLine where
  | reset
  | nop (txEn : Bool)
  | enc (house : Byte) (channel : Nibble) (t10 : Int) (txEn : Bool)
  | enctx (house : Byte) (channel : Nibble) (t10 : Int) (txEn : Bool)
  | ldf (frame : Payload) (txEn : Bool)
  | tx (txEn : Bool)
  | cfgw (signPol clampEn : Bool) (txEn : Bool)
  | raw (w : CmdWord) (txEn : Bool)
  | tick (n : Nat)
  | idle (n : Nat)
  deriving DecidableEq, Repr

/-- The edge of `RESET`. -/
def resetEdge : PortIn := { rst := true, cmdValid := false, cmd := 0#67, txEn := false }

/-- The edges of a line (R88). -/
def ScriptLine.edges : ScriptLine → List PortIn
  | .reset => [resetEdge]
  | .nop en => [commandEdge (wordN 0b000#3) en]
  | .enc house channel t10 en => [commandEdge (wordE 0b001#3 house channel t10) en]
  | .enctx house channel t10 en => [commandEdge (wordE 0b100#3 house channel t10) en]
  | .ldf frame en => [commandEdge (frame ++ 0b010#3) en]
  | .tx en => [commandEdge (wordN 0b011#3) en]
  | .cfgw signPol clampEn en => [commandEdge (wordC 0b101#3 signPol clampEn) en]
  | .raw w en => [commandEdge w en]
  | .tick n => List.replicate n (plainEdge true)
  | .idle n => List.replicate n (plainEdge false)

/-- The edges of a program. -/
def scriptEdges (ls : List ScriptLine) : List PortIn := ls.flatMap ScriptLine.edges

/-- `SEND house, channel, t10` (R89). -/
def sendLines (q : Params) (house : Byte) (channel : Nibble) (t10 : Int) : List ScriptLine :=
  [.enctx house channel t10 false, .tick (total q)]

/-- `RESEND` (R89). -/
def resendLines (q : Params) : List ScriptLine := [.tx false, .tick (total q)]

/-- `encode_frame(house=H, channel=C, temperature=X)` for an `X` of at most one decimal place, given as `10 * X` (R89). -/
def encodeFrameLine (house : Byte) (channel : Nibble) (tenths : Int) : ScriptLine := .enc house channel tenths false

end Sys2Proof.Machine
end

