-- ==== Sys2Proof/Safety.lean ====
section
/-! DEFINITION. What a safe state is: the invariants of `10_state.md` R35, and runs of the machine. -/

namespace Sys2Proof.Machine

/-- The invariants (a) to (g) of `10_state.md` R35, with the canonical form of the parameters (`00_scope.md` R6). -/
structure SafeState (s : State) : Prop where
  paramsWf      : s.params.wf
  busyFvalid    : s.busy = true → s.fvalid = true
  idlePos       : s.busy = false → s.pos = 0#8
  busyPos       : s.busy = true → s.pos.toNat < total s.params
  notBoth       : ¬ (s.busy = true ∧ s.done = true)
  invalidZero   : s.fvalid = false → s.frame = zeroFrame
  errWritten    : s.err ∈ [0#3, 2#3, 3#3, 4#3, 5#3, 6#3]
  busyNoError   : s.busy = true → s.err = 0#3

/-- `k` edges from `s`, stopping at a fault or a refusal (there is none): `Host.Core.run` of this machine. -/
def run : Nat → State → Host.Outcome State Fault Refusal
  | 0, s => .next s
  | k + 1, s =>
    match step s with
    | .next t => run k t
    | .fault r => .fault r
    | .refused r => .refused r

end Sys2Proof.Machine
end

