-- ==== Sys2Proof/Certificates/Slice0/Obligations.lean ====
section
/-! DEFINITION. The statements for the provers. Each docstring names the rule of spec/ it formalises; "derived" marks
a statement whose rule the spec itself marks as an inference, or that is this model's own. No statement fixes an OPEN
parameter: tables, preamble and polarity are whatever `s.params` holds. -/

open Sys2Proof Sys2Proof.Machine

/-! ### Command words -/

/-- Every well-formed command has a word, and the decoder reads it back with every operand (derived from the formats
of `30_encoding.md` R71 and R72). -/
def Obligations.DecodeInvertsEncode : Prop :=
  ∀ i : Instr, i.wf = true → i.isCommand = true → ∃ w, encode i = some w ∧ decode w = .ok i

/-- A word the decoder accepts is the word of exactly that instruction, which is a well-formed command: no word is a
second spelling (derived from `30_encoding.md` R71, R72, R75). -/
def Obligations.EncodeInvertsDecode : Prop :=
  ∀ (w : CmdWord) (i : Instr), decode w = .ok i → i.wf = true ∧ i.isCommand = true ∧ encode i = some w

/-- The opcode map (`30_encoding.md` R72): for each of the six commands `CW AND mask = match` is exactly what the
decoder tests, with the operand fields of R71; a word that selects none of the six is an illegal command. -/
def Obligations.OpcodeMapDecidesEveryWord : Prop :=
  ∀ w : CmdWord,
    (w &&& 0x7FFFFFFFFFFFFFFFF#67 = 0x0#67 ↔ decode w = .ok .nop) ∧
    (w &&& 0x7FFFFFFFFFC000007#67 = 0x1#67 ↔
      decode w = .ok (.enc (w.extractLsb' 3 8) (w.extractLsb' 11 4) (w.extractLsb' 15 11).toInt)) ∧
    (w &&& 0x00000000000000007#67 = 0x2#67 ↔
      decode w = .ok (.ldf (w.extractLsb' 59 8) (w.extractLsb' 51 8) (w.extractLsb' 43 8) (w.extractLsb' 35 8)
        (w.extractLsb' 27 8) (w.extractLsb' 19 8) (w.extractLsb' 11 8) (w.extractLsb' 3 8))) ∧
    (w &&& 0x7FFFFFFFFFFFFFFFF#67 = 0x3#67 ↔ decode w = .ok .tx) ∧
    (w &&& 0x7FFFFFFFFFC000007#67 = 0x4#67 ↔
      decode w = .ok (.enctx (w.extractLsb' 3 8) (w.extractLsb' 11 4) (w.extractLsb' 15 11).toInt)) ∧
    (w &&& 0x7FFFFFFFFFFFFFFE7#67 = 0x5#67 ↔ decode w = .ok (.cfgw (w.getLsbD 3) (w.getLsbD 4))) ∧
    (w &&& 0x00000000000000007#67 = 0x6#67 ↔ decode w = .ok (.reserved110 (w.extractLsb' 3 64))) ∧
    (w &&& 0x00000000000000007#67 = 0x7#67 ↔ decode w = .ok (.reserved111 (w.extractLsb' 3 64))) ∧
    (w &&& 0x7FFFFFFFFFFFFFFFF#67 ≠ 0x0#67 → w &&& 0x7FFFFFFFFFC000007#67 ≠ 0x1#67 →
      w &&& 0x00000000000000007#67 ≠ 0x2#67 → w &&& 0x7FFFFFFFFFFFFFFFF#67 ≠ 0x3#67 →
      w &&& 0x7FFFFFFFFFC000007#67 ≠ 0x4#67 → w &&& 0x7FFFFFFFFFFFFFFE7#67 ≠ 0x5#67 →
      ∀ s : State, acceptWord w s = .next { s with err := 6#3 })

/-- Reserved bits (`30_encoding.md` R75): in formats N, E and C a word of a defined opcode is rejected exactly when
some reserved bit is 1, it is then not executed as the named command but as the illegal one, and format F has no
reserved bit. -/
def Obligations.ReservedBitMakesWordIllegal : Prop :=
  ∀ w : CmdWord,
    ((opField w = 0b000#3 ∨ opField w = 0b011#3) →
      ((∃ j, 3 ≤ j ∧ w.getLsbD j = true) ↔ decode w = .error (.reservedBit (opField w)))) ∧
    ((opField w = 0b001#3 ∨ opField w = 0b100#3) →
      ((∃ j, 26 ≤ j ∧ w.getLsbD j = true) ↔ decode w = .error (.reservedBit (opField w)))) ∧
    (opField w = 0b101#3 →
      ((∃ j, 5 ≤ j ∧ w.getLsbD j = true) ↔ decode w = .error (.reservedBit (opField w)))) ∧
    (opField w = 0b010#3 → ∃ f0 f1 f2 f3 f4 f5 f6 f7, decode w = .ok (.ldf f0 f1 f2 f3 f4 f5 f6 f7)) ∧
    (∀ r, decode w = .error r → ∀ s : State, acceptWord w s = .next { s with err := 6#3 })

/-- Words of the table of `95_test_vectors.md` section 3.4 decode as it says (derived; fixed words). -/
def Obligations.ListedWordsDecode : Prop :=
  decode 0x00000000000000000#67 = .ok .nop ∧
  decode 0x00000000000000003#67 = .ok .tx ∧
  decode 0x00000000000688FB9#67 = .ok (.enc 0xF7#8 0x1#4 209) ∧
  decode 0x00000000003CA91E4#67 = .ok (.enctx 0x3C#8 0x2#4 (-107)) ∧
  decode 0x0091A2B3C4D5E6F7A#67 =
    .ok (.ldf 0x01#8 0x23#8 0x45#8 0x67#8 0x89#8 0xAB#8 0xCD#8 0xEF#8) ∧
  decode 0x0000000000000000D#67 = .ok (.cfgw true false) ∧
  decode 0x00000000000000015#67 = .ok (.cfgw false true) ∧
  decode 0x7FFFFFFFFFFFFFFFE#67 = .ok (.reserved110 0xFFFFFFFFFFFFFFFF#64) ∧
  decode 0x00000000000000007#67 = .ok (.reserved111 0#64) ∧
  decode 0x40000000000688FBC#67 = .error (.reservedBit 0b100#3)

/-- The script notation (`30_encoding.md` R88): which inputs each line drives, and the arithmetic of the words. -/
def Obligations.ScriptLinesDriveTheirEdges : Prop :=
  (∃ w, ScriptLine.reset.edges = [⟨true, false, w, false⟩]) ∧
  (∀ en, (ScriptLine.nop en).edges = [⟨false, true, 0#67, en⟩]) ∧
  (∀ h c t en, t10Fits t → ∃ w, (ScriptLine.enc h c t en).edges = [⟨false, true, w, en⟩] ∧
    w.toNat = 1 + h.toNat * 2 ^ 3 + c.toNat * 2 ^ 11 + (t % 2048).toNat * 2 ^ 15) ∧
  (∀ h c t en, t10Fits t → ∃ w, (ScriptLine.enctx h c t en).edges = [⟨false, true, w, en⟩] ∧
    w.toNat = 4 + h.toNat * 2 ^ 3 + c.toNat * 2 ^ 11 + (t % 2048).toNat * 2 ^ 15) ∧
  (∀ (p : Payload) (en : Bool), ∃ w, (ScriptLine.ldf p en).edges = [⟨false, true, w, en⟩] ∧
    w.toNat = 2 + p.toNat * 2 ^ 3) ∧
  (∀ en, (ScriptLine.tx en).edges = [⟨false, true, 3#67, en⟩]) ∧
  (∀ sp ce en, ∃ w, (ScriptLine.cfgw sp ce en).edges = [⟨false, true, w, en⟩] ∧
    w.toNat = 5 + sp.toNat * 2 ^ 3 + ce.toNat * 2 ^ 4) ∧
  (∀ w en, (ScriptLine.raw w en).edges = [⟨false, true, w, en⟩]) ∧
  (∀ n, (ScriptLine.tick n).edges.length = n ∧
    ∀ i ∈ (ScriptLine.tick n).edges, i.rst = false ∧ i.cmdValid = false ∧ i.txEn = true) ∧
  (∀ n, (ScriptLine.idle n).edges.length = n ∧
    ∀ i ∈ (ScriptLine.idle n).edges, i.rst = false ∧ i.cmdValid = false ∧ i.txEn = false)

/-! ### Temperature digits -/

/-- Magnitude, integer temperature and digit (`40_temperature_digits.md` R101, R102): the quotient by 10 truncated
toward zero, and the remainder of the magnitude. -/
def Obligations.TemperatureSplitsTowardZero : Prop :=
  ∀ t10 : Int,
    magnitude t10 = t10.natAbs ∧ (isNegative t10 = true ↔ t10 < 0) ∧
    integerTemp (magnitude t10) (isNegative t10) =
      (if t10 < 0 then -((t10.natAbs / 10 : Nat) : Int) else ((t10.natAbs / 10 : Nat) : Int)) ∧
    integerTemp (magnitude t10) (isNegative t10) = t10.tdiv 10 ∧
    (decimalDigit (magnitude t10)).val = t10.natAbs - t10.natAbs / 10 * 10 ∧
    (decimalDigit (magnitude t10)).val = t10.natAbs % 10

/-- The two views of the temperature agree (derived; `40_temperature_digits.md` R107), each digit is `0..9`, and
together they are the magnitude (`30_encoding.md` R80). -/
def Obligations.DigitViewsAgree : Prop :=
  ∀ t10 : Int, t10.natAbs ≤ 999 →
    magnitude t10 =
      10 * (integerTemp (magnitude t10) (isNegative t10)).natAbs + (decimalDigit (magnitude t10)).val ∧
    bcdLow (magnitude t10) = (decimalDigit (magnitude t10)).val ∧
    bcdMid (magnitude t10) = (integerTemp (magnitude t10) (isNegative t10)).natAbs % 10 ∧
    bcdHigh (magnitude t10) = (integerTemp (magnitude t10) (isNegative t10)).natAbs / 10 ∧
    (integerTemp (magnitude t10) (isNegative t10)).natAbs ≤ 99 ∧
    bcdLow (magnitude t10) ≤ 9 ∧ bcdMid (magnitude t10) ≤ 9 ∧ bcdHigh (magnitude t10) ≤ 9 ∧
    magnitude t10 = 100 * bcdHigh (magnitude t10) + 10 * bcdMid (magnitude t10) + bcdLow (magnitude t10)

/-- The sign nibble (`30_encoding.md` R81): `0x0` or `0x8` and nothing else, by the polarity. -/
def Obligations.SignNibbleFollowsPolarity : Prop :=
  ∀ t10 : Int,
    signNibble (isNegative t10) false = (if t10 < 0 then 0x8#4 else 0x0#4) ∧
    signNibble (isNegative t10) true = (if t10 < 0 then 0x0#4 else 0x8#4)

/-! ### Frame codec -/

/-- The `M` index (`41_frame_codec.md` R121): a present entry is used; with clamping on, below every key of a table
that is not empty the least key, above every key the greatest; every other absent index is `LookupError`, code 2. Only
the index is clamped: the digits and the sign of a message are those of the true `T10`. -/
def Obligations.MIndexSelection : Prop :=
  ∀ (q : Params) (clampEn : Bool) (e : Int), q.wf →
    (∀ v, (e, v) ∈ q.m → selectM q clampEn e = .ok (e, v)) ∧
    (∀ k v, clampEn = true → (k, v) ∈ q.m → (∀ x ∈ q.m, k ≤ x.1) → e < k → selectM q clampEn e = .ok (k, v)) ∧
    (∀ k v, clampEn = true → (k, v) ∈ q.m → (∀ x ∈ q.m, x.1 ≤ k) → k < e → selectM q clampEn e = .ok (k, v)) ∧
    ((∀ v, (e, v) ∉ q.m) →
      (clampEn = false ∨ q.m = [] ∨ ((∃ x ∈ q.m, x.1 < e) ∧ ∃ x ∈ q.m, e < x.1)) →
      selectM q clampEn e = .error (.lookup e)) ∧
    (BlockError.lookup e).code = 2#3 ∧
    (∀ sp h c t10 F, frameGen q sp clampEn h c t10 = .ok F →
      (hi F[4]).toNat = t10.natAbs % 10 ∧ (lo F[4]).toNat = t10.natAbs / 10 % 10 ∧
      (hi F[5]).toNat = t10.natAbs / 100 ∧ lo F[5] = signNibble (decide (t10 < 0)) sp)

/-- The house offset (`41_frame_codec.md` R122): a present entry as it stands, also at the reference house; 0 for the
reference house without an entry; every other house is `HouseError`, code 4. -/
def Obligations.HouseOffsetSelection : Prop :=
  ∀ (q : Params) (house : Byte), q.wf →
    (∀ off, (house, off) ∈ q.hoff → houseOffset q house = .ok off) ∧
    ((∀ off, (house, off) ∉ q.hoff) → house = q.refHouse → houseOffset q house = .ok 0x000#12) ∧
    ((∀ off, (house, off) ∉ q.hoff) → house ≠ q.refHouse → houseOffset q house = .error (.house house)) ∧
    (BlockError.house house).code = 4#3

/-- Which error `FRAMEGEN` reports (derived from `41_frame_codec.md` R131): the first check that fails, in the order
range, table, house, and never another. -/
def Obligations.FrameGenReportsFirstFailedCheck : Prop :=
  ∀ (q : Params) (sp ce : Bool) (h : Byte) (c : Nibble) (t10 : Int) (E : BlockError),
    frameGen q sp ce h c t10 = .error E ↔
      (999 < t10.natAbs ∧ E = .range t10) ∨
      (t10.natAbs ≤ 999 ∧ E = .lookup (t10.tdiv 10) ∧ ∀ sel, selectM q ce (t10.tdiv 10) ≠ .ok sel) ∨
      (t10.natAbs ≤ 999 ∧ (∃ sel, selectM q ce (t10.tdiv 10) = .ok sel) ∧ E = .house h ∧
        ∀ off, houseOffset q h ≠ .ok off)

/-- The frame format, nibble by nibble (`30_encoding.md` R78), with `r12 = M[ei] XOR P[d] XOR off`
(`41_frame_codec.md` R123), for every message `FRAMEGEN` returns. -/
def Obligations.MessageNibbles : Prop :=
  ∀ (q : Params) (sp ce : Bool) (h : Byte) (c : Nibble) (t10 : Int) (F : Frame),
    frameGen q sp ce h c t10 = .ok F →
    ∃ ei v off, selectM q ce (t10.tdiv 10) = .ok (ei, v) ∧ houseOffset q h = .ok off ∧
      ∀ (r12 : Word12) (s : Nat), r12 = v ^^^ q.p[t10.natAbs % 10]'(Nat.mod_lt _ (by decide)) ^^^ off →
        s = ((hi F[0]).toNat + (lo F[0]).toNat + (hi F[1]).toNat + (lo F[1]).toNat +
          (hi F[2]).toNat + (lo F[2]).toNat + (hi F[3]).toNat + (lo F[3]).toNat +
          (hi F[4]).toNat + (lo F[4]).toNat + (hi F[5]).toNat + (lo F[5]).toNat) % 256 →
      hi F[0] = 0xE#4 ∧ lo F[0] = 0xC#4 ∧ hi F[1] = 0x4#4 ∧ lo F[1] = 0x0#4 ∧
      hi F[2] = c ∧ (lo F[2]).toNat = h.toNat % 16 ∧
      (hi F[3]).toNat = h.toNat / 16 ∧ (lo F[3]).toNat = r12.toNat / 256 ∧
      (hi F[4]).toNat = t10.natAbs % 10 ∧ (lo F[4]).toNat = t10.natAbs / 10 % 10 ∧
      (hi F[5]).toNat = t10.natAbs / 100 ∧ lo F[5] = signNibble (decide (t10 < 0)) sp ∧
      (hi F[6]).toNat = s % 16 ∧ (lo F[6]).toNat = s / 16 ∧
      F[7].toNat = r12.toNat % 256

/-- The checksum byte of a message (derived; `41_frame_codec.md` R128, R129): recomputing it from bytes 0 to 5 gives
the same byte, and the nibble sum lies in `30..125`. -/
def Obligations.ChecksumRecomputes : Prop :=
  ∀ (q : Params) (sp ce : Bool) (h : Byte) (c : Nibble) (t10 : Int) (F : Frame),
    frameGen q sp ce h c t10 = .ok F →
    F[6] = swapLanes (laneSum [F[0], F[1], F[2], F[3], F[4], F[5]]) ∧
    30 ≤ (laneSum [F[0], F[1], F[2], F[3], F[4], F[5]]).toNat ∧
    (laneSum [F[0], F[1], F[2], F[3], F[4], F[5]]).toNat ≤ 125

/-- The golden vector as far as the rules fix it, for any tables (derived; `41_frame_codec.md` R136): house 247,
channel 1, 20.9 degrees. -/
def Obligations.GoldenVectorForAnyTables : Prop :=
  ∀ (q : Params) (sp ce : Bool) (F : Frame), frameGen q sp ce 247#8 1#4 209 = .ok F →
    F[0] = 0xEC#8 ∧ F[1] = 0x40#8 ∧ F[2] = 0x17#8 ∧ hi F[3] = 0xF#4 ∧ F[4] = 0x90#8 ∧ hi F[5] = 0x2#4 ∧
    lo F[5] = (if sp then 0x8#4 else 0x0#4) ∧
    F[6].toNat = (64 + (lo F[3]).toNat + (lo F[5]).toNat) % 16 * 16 + (64 + (lo F[3]).toNat + (lo F[5]).toNat) / 16

/-! ### Bitstream -/

/-- The Manchester symbol table (`30_encoding.md` R82). -/
def Obligations.ManchesterSymbols : Prop :=
  manch false = [true, false] ∧ manch true = [false, true] ∧ ∀ b, manch b = [!b, b]

/-- Nibble reflection (`42_bitstream_encoder.md` R151): the halves exchanged, each half as it was, twice is nothing,
equal halves stay; it undoes the swap of the checksum byte; and it is applied to each of the eight bytes. -/
def Obligations.ReflectExchangesHalves : Prop :=
  (∀ b : Byte, reflect b = ((b &&& 0x0F#8) <<< 4) ||| (b >>> 4) ∧ hi (reflect b) = lo b ∧ lo (reflect b) = hi b ∧
    reflect (reflect b) = b ∧ (hi b = lo b → reflect b = b) ∧ reflect (byte6 b) = b) ∧
  ∀ (F : Frame) (i : Fin 8), ((logical F).drop (8 * i.val)).take 8 = expand (reflect F[i])

/-- The order of the bits on the wire (derived; `42_bitstream_encoder.md` R159): nibbles in the order they are
written, each least significant bit first. -/
def Obligations.WireOrderOfNibbles : Prop :=
  ∀ F : Frame, logical F =
    (F.toList.flatMap fun b => [hi b, lo b]).flatMap fun n =>
      [n.getLsbD 0, n.getLsbD 1, n.getLsbD 2, n.getLsbD 3]

/-- The closed form of one bit is the bit of the whole transmission, which has `TOTAL` bits (derived;
`42_bitstream_encoder.md` R157). -/
def Obligations.ClosedFormIsStreamBit : Prop :=
  ∀ (q : Params) (F : Frame), (bitstream q F).length = total q ∧
    ∀ k, k < total q → (bitstream q F)[k]? = some (bsBit q F k)

/-- The mapping can be undone (derived; `42_bitstream_encoder.md` R160): the inverse returns the frame, so no two
frames have one payload. -/
def Obligations.PayloadCanBeUndone : Prop :=
  (∀ F : Frame, frameOfPayload (payload F) = F) ∧ ∀ F G : Frame, payload F = payload G → F = G

/-- What a payload never contains (derived; `30_encoding.md` R85): aligned pairs are `10` or `01`, a run of equal bits
is at most 2 long, exactly 64 of the 128 bits are 1. -/
def Obligations.PayloadIsBalanced : Prop :=
  ∀ F : Frame, (payload F).length = 128 ∧
    (∀ m, m < 64 → ∃ b, (payload F)[2 * m]? = some (!b) ∧ (payload F)[2 * m + 1]? = some b) ∧
    (∀ k, k + 2 < 128 →
      ¬ ((payload F)[k]? = (payload F)[k + 1]? ∧ (payload F)[k + 1]? = (payload F)[k + 2]?)) ∧
    (payload F).count true = 64

/-- The text of a bit sequence (`30_encoding.md` R87): four bits a digit, the earlier bit more significant, earlier
digits first, and no text exactly when the length is not a multiple of 4: a payload has 32 digits, a transmission has a
text exactly when `PRE_LEN` is a multiple of 4. -/
def Obligations.BitsTextGroupsByFour : Prop :=
  (∀ l : List Bool, bitsText l = none ↔ l.length % 4 ≠ 0) ∧
  (∀ (l : List Bool) (t : List Char), bitsText l = some t → 4 * t.length = l.length ∧
    ∀ k, k < t.length → ∃ a b c d, l[4 * k]? = some a ∧ l[4 * k + 1]? = some b ∧ l[4 * k + 2]? = some c ∧
      l[4 * k + 3]? = some d ∧
      t[k]? = "0123456789ABCDEF".toList[8 * a.toNat + 4 * b.toNat + 2 * c.toNat + d.toNat]?) ∧
  (∀ F : Frame, ∃ t, bitsText (payload F) = some t ∧ t.length = 32) ∧
  (∀ (q : Params) (F : Frame), (∃ t, bitsText (bitstream q F) = some t) ↔ q.preamble.length % 4 = 0)

/-- The text of a frame (`30_encoding.md` R79): sixteen digits, byte 0 first, the high nibble first. -/
def Obligations.FrameTextIsSixteenDigits : Prop :=
  ∀ F : Frame, (frameText F).length = 16 ∧
    ∀ i : Fin 8, (frameText F)[2 * i.val]? = "0123456789ABCDEF".toList[(hi F[i]).toNat]? ∧
      (frameText F)[2 * i.val + 1]? = "0123456789ABCDEF".toList[(lo F[i]).toNat]?

/-! ### Output ports -/

/-- The output ports (`10_state.md` R31); `frame_out` is all zero without a valid frame in every state the invariants
allow. -/
def Obligations.OutputPortsShowTheState : Prop :=
  ∀ s : State,
    (outputs s).cmdReady = !s.busy ∧ (outputs s).busy = s.busy ∧ (outputs s).done = s.done ∧
    (outputs s).fvalid = s.fvalid ∧ (outputs s).err = s.err ∧
    (outputs s).cfg.getLsbD 0 = s.signPol ∧ (outputs s).cfg.getLsbD 1 = s.clampEn ∧
    (∀ i : Fin 8, (outputs s).frameOut.extractLsb' (56 - 8 * i.val) 8 = s.frame[i]) ∧
    (outputs s).txValid = s.busy ∧
    (s.busy = true → s.pos.toNat < total s.params →
      (bitstream s.params s.frame)[s.pos.toNat]? = some (outputs s).txBit) ∧
    (s.busy = false → (outputs s).txBit = false) ∧
    ((outputs s).txLast = true ↔ s.busy = true ∧ s.pos.toNat = total s.params - 1) ∧
    (SafeState s → (outputs s).fvalid = false → (outputs s).frameOut = 0#64)

/-- The `STATUS` view (`10_state.md` R28). -/
def Obligations.StatusViewBits : Prop :=
  ∀ s : State, (statusView s).getLsbD 0 = s.busy ∧ (statusView s).getLsbD 1 = s.done ∧
    (statusView s).getLsbD 2 = s.fvalid ∧ (statusView s).extractLsb' 3 3 = s.err

/-! ### Commands -/

/-- `NOP` (`43_commands.md` R182): it completes and changes nothing. -/
def Obligations.NopChangesNothing : Prop := ∀ s : State, exec .nop s = .next s

/-- `ENC` (`43_commands.md` R183, with the codes of `60_exceptions.md` R223 to R225): out of range is code 3, else no
`M` index is code 2, else no offset is code 4, each with `FRAME` zero and `FVALID` 0; otherwise the message, `FVALID`
1 and `ERR` 0. Nothing else changes. -/
def Obligations.EncStoresMessageOrError : Prop :=
  ∀ (s : State) (h : Byte) (c : Nibble) (t10 : Int),
    (999 < t10.natAbs →
      exec (.enc h c t10) s = .next { s with frame := zeroFrame, fvalid := false, err := 3#3 }) ∧
    (∀ E, t10.natAbs ≤ 999 → selectM s.params s.clampEn (t10.tdiv 10) = .error E →
      exec (.enc h c t10) s = .next { s with frame := zeroFrame, fvalid := false, err := 2#3 }) ∧
    (∀ sel E, t10.natAbs ≤ 999 → selectM s.params s.clampEn (t10.tdiv 10) = .ok sel →
      houseOffset s.params h = .error E →
      exec (.enc h c t10) s = .next { s with frame := zeroFrame, fvalid := false, err := 4#3 }) ∧
    (∀ sel off, t10.natAbs ≤ 999 → selectM s.params s.clampEn (t10.tdiv 10) = .ok sel →
      houseOffset s.params h = .ok off →
      ∃ F, frameGen s.params s.signPol s.clampEn h c t10 = .ok F ∧
        exec (.enc h c t10) s = .next { s with frame := F, fvalid := true, err := 0#3 })

/-- `LDF` (`43_commands.md` R184): the eight bytes as given, `FVALID` 1, `ERR` 0, nothing else. -/
def Obligations.LdfLoadsEightBytes : Prop :=
  ∀ (s : State) (f0 f1 f2 f3 f4 f5 f6 f7 : Byte),
    exec (.ldf f0 f1 f2 f3 f4 f5 f6 f7) s =
      .next { s with frame := #v[f0, f1, f2, f3, f4, f5, f6, f7], fvalid := true, err := 0#3 }

/-- `TX` (`43_commands.md` R185): with a frame it starts, without one it is `NoFrame`, code 5; both clear `DONE`. -/
def Obligations.TxStartsOrReportsNoFrame : Prop :=
  ∀ s : State,
    (s.fvalid = true → exec .tx s = .next { s with done := false, busy := true, pos := 0#8, err := 0#3 }) ∧
    (s.fvalid = false → exec .tx s = .next { s with done := false, err := 5#3 })

/-- `ENCTX` (`43_commands.md` R186): the checks and codes of `ENC`, `DONE` cleared in every case, and on a message the
transmission starts with it. -/
def Obligations.EnctxStartsMessageOrReportsError : Prop :=
  ∀ (s : State) (h : Byte) (c : Nibble) (t10 : Int),
    (999 < t10.natAbs →
      exec (.enctx h c t10) s =
        .next { s with frame := zeroFrame, fvalid := false, done := false, err := 3#3 }) ∧
    (∀ E, t10.natAbs ≤ 999 → selectM s.params s.clampEn (t10.tdiv 10) = .error E →
      exec (.enctx h c t10) s =
        .next { s with frame := zeroFrame, fvalid := false, done := false, err := 2#3 }) ∧
    (∀ sel E, t10.natAbs ≤ 999 → selectM s.params s.clampEn (t10.tdiv 10) = .ok sel →
      houseOffset s.params h = .error E →
      exec (.enctx h c t10) s =
        .next { s with frame := zeroFrame, fvalid := false, done := false, err := 4#3 }) ∧
    (∀ sel off, t10.natAbs ≤ 999 → selectM s.params s.clampEn (t10.tdiv 10) = .ok sel →
      houseOffset s.params h = .ok off →
      ∃ F, frameGen s.params s.signPol s.clampEn h c t10 = .ok F ∧
        exec (.enctx h c t10) s =
          .next { s with frame := F, fvalid := true, done := false, busy := true, pos := 0#8, err := 0#3 })

/-- `CFGW` (`43_commands.md` R187): both fields and `ERR`, nothing else. -/
def Obligations.CfgwWritesConfiguration : Prop :=
  ∀ (s : State) (sp ce : Bool),
    exec (.cfgw sp ce) s = .next { s with signPol := sp, clampEn := ce, err := 0#3 }

/-- The illegal command (`43_commands.md` R188): both reserved opcodes with any payload, and every accepted word that
the decoder rejects, write `ERR` 6 and nothing else. -/
def Obligations.IllegalCommandWritesOnlyErr : Prop :=
  ∀ s : State,
    (∀ p, exec (.reserved110 p) s = .next { s with err := 6#3 }) ∧
    (∀ p, exec (.reserved111 p) s = .next { s with err := 6#3 }) ∧
    (∀ w r, decode w = .error r → acceptWord w s = .next { s with err := 6#3 })

/-- `TICK` (`43_commands.md` R190): the bit of the transmission at `POS` is emitted; the last bit ends the
transmission, any other advances `POS` by exactly 1; nothing else changes. This is for `POS < TOTAL`;
TickPastTheEndTakesLastBranch is for the rest. -/
def Obligations.TickEmitsBitAndAdvances : Prop :=
  ∀ s : State, s.params.wf → s.pos.toNat < total s.params →
    ∃ b, (bitstream s.params s.frame)[s.pos.toNat]? = some b ∧
      (s.pos.toNat = total s.params - 1 →
        exec .tick s = .next { s with busy := false, done := true, pos := 0#8, trace := s.trace ++ [b] }) ∧
      (s.pos.toNat ≠ total s.params - 1 →
        exec .tick s =
          .next { s with pos := BitVec.ofNat 8 (s.pos.toNat + 1), trace := s.trace ++ [b] } ∧
        s.pos.toNat + 1 < 256)

/-- `ENCTX` is `ENC` then `TX` in one step when there is a message, and the failing `ENC` with `DONE` cleared when
there is none (derived from the text of `43_commands.md` R186). -/
def Obligations.EnctxIsEncThenTx : Prop :=
  ∀ (s t : State) (h : Byte) (c : Nibble) (t10 : Int), exec (.enc h c t10) s = .next t →
    (t.fvalid = true → exec (.enctx h c t10) s = exec .tx t) ∧
    (t.fvalid = false → exec (.enctx h c t10) s = .next { t with done := false })

/-- A held word of `ENC`, `LDF`, `CFGW` or `NOP` does no harm: the second acceptance changes nothing (derived from
`70_reset_and_hazards.md` R255). -/
def Obligations.RepeatedCommandIsHarmless : Prop :=
  ∀ (i : Instr) (s t : State),
    (match i with
      | .nop => True | .enc _ _ _ => True | .ldf _ _ _ _ _ _ _ _ => True | .cfgw _ _ => True
      | .tx => False | .enctx _ _ _ => False | .reserved110 _ => False | .reserved111 _ => False
      | .tick => False) →
    exec i s = .next t → exec i t = .next t

/-- The error code is not sticky (derived from `10_state.md` R29): what an accepted command other than `NOP` does, its
code included, does not depend on the code before it, and the code it writes is one of 0, 2, 3, 4, 5, 6. -/
def Obligations.ErrIsNotSticky : Prop :=
  ∀ (i : Instr) (s : State) (x : BitVec 3), i ≠ .nop → i ≠ .tick →
    exec i { s with err := x } = exec i s ∧
    ∀ t, exec i s = .next t → t.err ∈ [0#3, 2#3, 3#3, 4#3, 5#3, 6#3]

/-- What each instruction leaves unchanged (derived; `10_state.md` R22 to R29, `43_commands.md` R182 to R190): every
field but those its rule writes. -/
def Obligations.InstructionFrame : Prop :=
  ∀ (i : Instr) (s t : State), exec i s = .next t →
    t.params = s.params ∧ t.inputs = s.inputs ∧ t.draws = s.draws ∧
    (match i with
      | .cfgw _ _ => True
      | .nop | .enc _ _ _ | .ldf _ _ _ _ _ _ _ _ | .tx | .enctx _ _ _ | .reserved110 _ | .reserved111 _ | .tick =>
        t.signPol = s.signPol ∧ t.clampEn = s.clampEn) ∧
    (match i with
      | .enc _ _ _ | .ldf _ _ _ _ _ _ _ _ | .enctx _ _ _ => True
      | .nop | .tx | .cfgw _ _ | .reserved110 _ | .reserved111 _ | .tick =>
        (∀ k : Fin 8, t.frame[k] = s.frame[k]) ∧ t.fvalid = s.fvalid) ∧
    (match i with
      | .tx | .enctx _ _ _ | .tick => True
      | .nop | .enc _ _ _ | .ldf _ _ _ _ _ _ _ _ | .cfgw _ _ | .reserved110 _ | .reserved111 _ =>
        t.busy = s.busy ∧ t.done = s.done ∧ t.pos = s.pos) ∧
    (match i with
      | .tick => t.err = s.err
      | .nop => t.err = s.err ∧ t.trace = s.trace
      | .enc _ _ _ | .ldf _ _ _ _ _ _ _ _ | .tx | .enctx _ _ _ | .cfgw _ _ | .reserved110 _ | .reserved111 _ =>
        t.trace = s.trace)

/-! ### The step -/

/-- The step function (`43_commands.md` R180): reset, else the serializer while `BUSY`, else an accepted command, else
nothing; an accepted word runs the instruction it decodes to, on the state with the sample taken. -/
def Obligations.StepTakesOneArm : Prop :=
  ∀ s : State,
    ((nextInput s).rst = true → step s = .next s.popInput.resetBlock) ∧
    ((nextInput s).rst = false → s.busy = true → (nextInput s).txEn = true →
      step s = exec .tick s.popInput) ∧
    ((nextInput s).rst = false → s.busy = true → (nextInput s).txEn = false → step s = .next s.popInput) ∧
    (∀ i, (nextInput s).rst = false → s.busy = false → (nextInput s).cmdValid = true →
      decode (nextInput s).cmd = .ok i → step s = exec i s.popInput) ∧
    (∀ r, (nextInput s).rst = false → s.busy = false → (nextInput s).cmdValid = true →
      decode (nextInput s).cmd = .error r → step s = .next { s.popInput with err := 6#3 }) ∧
    ((nextInput s).rst = false → s.busy = false → (nextInput s).cmdValid = false → step s = .next s.popInput)

/-- Taking a sample moves the script on and touches nothing of the block; without a sample the host's choice is free
and one is counted (derived; the model's own fields, log 2). -/
def Obligations.SampleIsTakenOnce : Prop :=
  ∀ s : State,
    (∀ i rest, s.inputs = i :: rest → nextInput s = i ∧ s.popInput = { s with inputs := rest }) ∧
    (s.inputs = [] →
      nextInput s = Config.hostInput s.draws ∧ s.popInput = { s with draws := s.draws + 1 })

/-- What `withFetchWord` places is the next instruction to run: a command word to an idle block, the tick to a block
in a transmission (derived; the model's own placing, log 4 and log 10). -/
def Obligations.PlacedWordRunsNext : Prop :=
  ∀ (s : State) (nbits w : Nat) (i : Instr), decodeTableWord nbits w = some i →
    (i.isCommand = true →
      step (s.withFetchWord nbits w) = exec i { s with busy := false, pos := 0#8, inputs := s.inputs.tail }) ∧
    (i = .tick →
      step (s.withFetchWord nbits w) = exec .tick { s with busy := true, inputs := s.inputs.tail })

/-- Every edge has a next state: the block never halts (derived; `43_commands.md` R196, `00_scope.md` R10). -/
def Obligations.BlockNeverHalts : Prop := ∀ s : State, ∃ t, step s = .next t

/-- Reset (`10_state.md` R34, `70_reset_and_hazards.md` R250, R251): an edge with `rst = 1`, whatever else is on the
ports, gives exactly the reset values, emits nothing and leaves the parameters; `State.reset` has those values. -/
def Obligations.ResetGivesResetValues : Prop :=
  (∀ (s : State) (i : PortIn), i.rst = true → ∃ t, stepEdge i s = .next t ∧
    (∀ k : Fin 8, t.frame[k] = 0x00#8) ∧ t.fvalid = false ∧ t.busy = false ∧ t.done = false ∧ t.pos = 0#8 ∧
    t.err = 0#3 ∧ t.signPol = s.params.signPolReset ∧ t.clampEn = false ∧
    t.params = s.params ∧ t.trace = s.trace ∧ t.inputs = s.inputs ∧ t.draws = s.draws) ∧
  ((∀ k : Fin 8, State.reset.frame[k] = 0x00#8) ∧ State.reset.fvalid = false ∧ State.reset.busy = false ∧
    State.reset.done = false ∧ State.reset.pos = 0#8 ∧ State.reset.err = 0#3 ∧
    State.reset.signPol = State.reset.params.signPolReset ∧ State.reset.clampEn = false)

/-- Reset in a transmission (`70_reset_and_hazards.md` R252): the bits already emitted stand and no further bit comes
while no command is accepted, `DONE` is 0 and the frame is lost; and without reset a transmission ends only at its
last bit, which is emitted. -/
def Obligations.ResetTruncatesTransmission : Prop :=
  (∀ (s : State) (e : PortIn) (ins rest : List PortIn), s.busy = true → s.inputs = e :: (ins ++ rest) →
    e.rst = true → (∀ i ∈ ins, i.cmdValid = false) →
    run (1 + ins.length) s =
      .next { s with frame := zeroFrame, fvalid := false, busy := false, done := false, pos := 0#8, err := 0#3,
                     signPol := s.params.signPolReset, clampEn := false, inputs := rest }) ∧
  (∀ (s t : State) (e : PortIn), s.busy = true → s.pos.toNat < total s.params → e.rst = false →
    stepEdge e s = .next t → t.busy = false →
    s.pos.toNat = total s.params - 1 ∧ t.done = true ∧
    ∃ b, (bitstream s.params s.frame)[s.pos.toNat]? = some b ∧ t.trace = s.trace ++ [b])

/-- While `BUSY = 1` the command inputs are ignored at every edge (`43_commands.md` R192): two samples that differ
only in them have one effect, `cmd_ready` is 0, and the first edge that can accept is the one after the last tick. -/
def Obligations.BusyIgnoresCommandPort : Prop :=
  (∀ (s : State) (i j : PortIn), s.busy = true → i.rst = j.rst → i.txEn = j.txEn →
    stepEdge i s = stepEdge j s ∧ (outputs s).cmdReady = false) ∧
  (∀ (s : State) (i j : PortIn) (t : State) (k : Instr), s.busy = true → s.pos.toNat = total s.params - 1 →
    i.rst = false → i.txEn = true → stepEdge i s = .next t →
    j.rst = false → j.cmdValid = true → decode j.cmd = .ok k →
    t.busy = false ∧ stepEdge j t = exec k t)

/-- Who writes `FRAME` (derived; `10_state.md` R22): reset and accepted `ENC`, `ENCTX`, `LDF` only, so it cannot change
during a transmission. -/
def Obligations.FrameWriters : Prop :=
  ∀ (s t : State) (i : PortIn), stepEdge i s = .next t → t.frame ≠ s.frame →
    i.rst = true ∨
    (s.busy = false ∧ i.cmdValid = true ∧ ∃ k, decode i.cmd = .ok k ∧
      match k with
      | .enc _ _ _ | .enctx _ _ _ | .ldf _ _ _ _ _ _ _ _ => True
      | .nop | .tx | .cfgw _ _ | .reserved110 _ | .reserved111 _ | .tick => False)

/-- Who writes `CFG` (derived; `10_state.md` R27): reset and an accepted `CFGW` only. -/
def Obligations.ConfigurationWriters : Prop :=
  ∀ (s t : State) (i : PortIn), stepEdge i s = .next t →
    (t.signPol ≠ s.signPol ∨ t.clampEn ≠ s.clampEn) →
    i.rst = true ∨
    (s.busy = false ∧ i.cmdValid = true ∧ decode i.cmd = .ok (.cfgw t.signPol t.clampEn))

/-- Who moves the flags and `POS` (derived; `10_state.md` R23 to R26): `BUSY` rises only by an accepted `TX` or `ENCTX`,
with a valid frame, at bit 0 and without error; `DONE` rises only at a tick that emits the last bit; `FVALID` rises only
by an accepted `ENC`, `ENCTX` or `LDF`; and `POS` becomes 0, or moves by one at a tick, or stays. -/
def Obligations.FlagWriters : Prop :=
  ∀ (s t : State) (i : PortIn), stepEdge i s = .next t →
    (s.busy = false → t.busy = true →
      i.rst = false ∧ i.cmdValid = true ∧ t.fvalid = true ∧ t.pos = 0#8 ∧ t.err = 0#3 ∧ t.done = false ∧
      ∃ k, decode i.cmd = .ok k ∧
        match k with
        | .tx | .enctx _ _ _ => True
        | .nop | .enc _ _ _ | .ldf _ _ _ _ _ _ _ _ | .cfgw _ _ | .reserved110 _ | .reserved111 _ | .tick => False) ∧
    (s.done = false → t.done = true →
      i.rst = false ∧ s.busy = true ∧ i.txEn = true ∧ total s.params - 1 ≤ s.pos.toNat) ∧
    (s.fvalid = false → t.fvalid = true →
      i.rst = false ∧ s.busy = false ∧ i.cmdValid = true ∧ ∃ k, decode i.cmd = .ok k ∧
        match k with
        | .enc _ _ _ | .enctx _ _ _ | .ldf _ _ _ _ _ _ _ _ => True
        | .nop | .tx | .cfgw _ _ | .reserved110 _ | .reserved111 _ | .tick => False) ∧
    (t.pos = s.pos ∨ t.pos = 0#8 ∨
      (t.pos = s.pos + 1#8 ∧ i.rst = false ∧ s.busy = true ∧ i.txEn = true))

/-- The parameters are changed by no step (derived; `00_scope.md` R5, `20_memory.md` R56). -/
def Obligations.ParametersNeverChange : Prop := ∀ s t : State, step s = .next t → t.params = s.params

/-- The emitted trace is the port view (derived; `43_commands.md` R194, with reset as in `70_reset_and_hazards.md`
R252): an edge adds `tx_bit` exactly when `tx_valid = 1`, `tx_en = 1` and `rst = 0`, and otherwise nothing. -/
def Obligations.TraceIsSampledTxBit : Prop :=
  ∀ (s t : State) (i : PortIn), stepEdge i s = .next t →
    t.trace = s.trace ++
      (if i.rst = false ∧ (outputs s).txValid = true ∧ i.txEn = true then [(outputs s).txBit] else [])

/-! ### Invariants and runs -/

/-- The state after reset, for all parameters of legal form, and the model's own reset state meet the invariants
(derived; `10_state.md` R34, R35). -/
def Obligations.ResetMeetsInvariants : Prop :=
  SafeState State.reset ∧ ∀ s : State, s.params.wf → SafeState s.resetBlock

/-- Every step keeps the invariants (a) to (g) (derived; `10_state.md` R35), whatever the host drives. -/
def Obligations.StepKeepsInvariants : Prop := ∀ s t : State, SafeState s → step s = .next t → SafeState t

/-- In every state reached from a reset by any inputs the invariants hold, and the serial output is never valid
without a valid frame (derived; `10_state.md` R35, `95_test_vectors.md` section 5 claim 5). -/
def Obligations.ReachedStatesAreSafe : Prop :=
  ∀ (s t : State) (k : Nat), s.params.wf → run k s.resetBlock = .next t →
    SafeState t ∧ ((outputs t).txValid = true → (outputs t).fvalid = true)

/-- One transmission (derived; `43_commands.md` R191): from any state in a transmission, inputs without reset that
contain exactly the missing ticks and end at the last of them emit the rest of `BS(FRAME)` in order, whatever stalls
and commands come between, and leave the block idle and done with all else unchanged. -/
def Obligations.BusyRunEmitsRestOfStream : Prop :=
  ∀ (s : State) (ins rest : List PortIn),
    s.params.wf → s.busy = true → s.pos.toNat < total s.params → s.inputs = ins ++ rest →
    (∀ i ∈ ins, i.rst = false) → ins.countP (fun i => i.txEn) = total s.params - s.pos.toNat →
    (∀ i, ins.getLast? = some i → i.txEn = true) →
    run ins.length s =
      .next { s with busy := false, done := true, pos := 0#8, inputs := rest,
                     trace := s.trace ++ (bitstream s.params s.frame).drop s.pos.toNat }

/-- An accepted `ENCTX` whose reading has a message sends exactly `BS` of it (derived; `43_commands.md` R196): after
any later inputs without reset that hold exactly `TOTAL` edges with `tx_en = 1` and end at the last of them. -/
def Obligations.EnctxTransmitsItsMessage : Prop :=
  ∀ (s : State) (h : Byte) (c : Nibble) (t10 : Int) (en : Bool) (F : Frame) (ins rest : List PortIn),
    s.params.wf → s.busy = false → frameGen s.params s.signPol s.clampEn h c t10 = .ok F →
    s.inputs = commandEdge (wordE 0b100#3 h c t10) en :: (ins ++ rest) →
    (∀ i ∈ ins, i.rst = false) → ins.countP (fun i => i.txEn) = total s.params →
    (∀ i, ins.getLast? = some i → i.txEn = true) →
    run (1 + ins.length) s =
      .next { s with frame := F, fvalid := true, busy := false, done := true, pos := 0#8, err := 0#3,
                     inputs := rest, trace := s.trace ++ bitstream s.params F }

/-- An accepted `ENCTX` whose reading has an error sends nothing as long as no further command is accepted (derived;
`43_commands.md` R196, second half), and leaves the code and no frame. -/
def Obligations.FailedEnctxStaysSilent : Prop :=
  ∀ (s : State) (h : Byte) (c : Nibble) (t10 : Int) (en : Bool) (E : BlockError) (ins rest : List PortIn),
    s.busy = false → t10Fits t10 → frameGen s.params s.signPol s.clampEn h c t10 = .error E →
    s.inputs = commandEdge (wordE 0b100#3 h c t10) en :: (ins ++ rest) →
    (∀ i ∈ ins, i.rst = false ∧ i.cmdValid = false) →
    run (1 + ins.length) s =
      .next { s with frame := zeroFrame, fvalid := false, done := false, err := E.code, inputs := rest }

/-! ### The model's own reading -/

/-- A tick at `POS >= TOTAL` takes the branch of the last bit and emits 0 (derived; not a rule of
the spec but the model's own reading, log 5, DEDUCED: the rules give such a state no meaning, and `43_commands.md` R190
only recommends this). -/
def Obligations.TickPastTheEndTakesLastBranch : Prop :=
  ∀ s : State, total s.params ≤ s.pos.toNat →
    exec .tick s = .next { s with busy := false, done := true, pos := 0#8, trace := s.trace ++ [false] }
end

