-- ==== Sys2Proof/Laws/State.lean ====
section
/-! SUPPORT. What each state update leaves in each field: one lemma for each field of each update. -/

namespace Sys2Proof.Machine

/-! ### loadFrame -/

@[simp] theorem State.loadFrame_frame (F : Frame) (s : State) : (s.loadFrame F).frame = F := rfl
@[simp] theorem State.loadFrame_fvalid (F : Frame) (s : State) : (s.loadFrame F).fvalid = true := rfl
@[simp] theorem State.loadFrame_busy (F : Frame) (s : State) : (s.loadFrame F).busy = s.busy := rfl
@[simp] theorem State.loadFrame_done (F : Frame) (s : State) : (s.loadFrame F).done = s.done := rfl
@[simp] theorem State.loadFrame_pos (F : Frame) (s : State) : (s.loadFrame F).pos = s.pos := rfl
@[simp] theorem State.loadFrame_err (F : Frame) (s : State) : (s.loadFrame F).err = 0#3 := rfl
@[simp] theorem State.loadFrame_signPol (F : Frame) (s : State) : (s.loadFrame F).signPol = s.signPol := rfl
@[simp] theorem State.loadFrame_clampEn (F : Frame) (s : State) : (s.loadFrame F).clampEn = s.clampEn := rfl
@[simp] theorem State.loadFrame_params (F : Frame) (s : State) : (s.loadFrame F).params = s.params := rfl
@[simp] theorem State.loadFrame_inputs (F : Frame) (s : State) : (s.loadFrame F).inputs = s.inputs := rfl
@[simp] theorem State.loadFrame_draws (F : Frame) (s : State) : (s.loadFrame F).draws = s.draws := rfl
@[simp] theorem State.loadFrame_trace (F : Frame) (s : State) : (s.loadFrame F).trace = s.trace := rfl

/-! ### dropFrame -/

@[simp] theorem State.dropFrame_frame (s : State) : (s.dropFrame).frame = zeroFrame := rfl
@[simp] theorem State.dropFrame_fvalid (s : State) : (s.dropFrame).fvalid = false := rfl
@[simp] theorem State.dropFrame_busy (s : State) : (s.dropFrame).busy = s.busy := rfl
@[simp] theorem State.dropFrame_done (s : State) : (s.dropFrame).done = s.done := rfl
@[simp] theorem State.dropFrame_pos (s : State) : (s.dropFrame).pos = s.pos := rfl
@[simp] theorem State.dropFrame_err (s : State) : (s.dropFrame).err = s.err := rfl
@[simp] theorem State.dropFrame_signPol (s : State) : (s.dropFrame).signPol = s.signPol := rfl
@[simp] theorem State.dropFrame_clampEn (s : State) : (s.dropFrame).clampEn = s.clampEn := rfl
@[simp] theorem State.dropFrame_params (s : State) : (s.dropFrame).params = s.params := rfl
@[simp] theorem State.dropFrame_inputs (s : State) : (s.dropFrame).inputs = s.inputs := rfl
@[simp] theorem State.dropFrame_draws (s : State) : (s.dropFrame).draws = s.draws := rfl
@[simp] theorem State.dropFrame_trace (s : State) : (s.dropFrame).trace = s.trace := rfl

/-! ### resetBlock -/

@[simp] theorem State.resetBlock_frame (s : State) : (s.resetBlock).frame = zeroFrame := rfl
@[simp] theorem State.resetBlock_fvalid (s : State) : (s.resetBlock).fvalid = false := rfl
@[simp] theorem State.resetBlock_busy (s : State) : (s.resetBlock).busy = false := rfl
@[simp] theorem State.resetBlock_done (s : State) : (s.resetBlock).done = false := rfl
@[simp] theorem State.resetBlock_pos (s : State) : (s.resetBlock).pos = 0#8 := rfl
@[simp] theorem State.resetBlock_err (s : State) : (s.resetBlock).err = 0#3 := rfl
@[simp] theorem State.resetBlock_signPol (s : State) : (s.resetBlock).signPol = s.params.signPolReset := rfl
@[simp] theorem State.resetBlock_clampEn (s : State) : (s.resetBlock).clampEn = false := rfl
@[simp] theorem State.resetBlock_params (s : State) : (s.resetBlock).params = s.params := rfl
@[simp] theorem State.resetBlock_inputs (s : State) : (s.resetBlock).inputs = s.inputs := rfl
@[simp] theorem State.resetBlock_draws (s : State) : (s.resetBlock).draws = s.draws := rfl
@[simp] theorem State.resetBlock_trace (s : State) : (s.resetBlock).trace = s.trace := rfl

/-! ### emit -/

@[simp] theorem State.emit_frame (b : Bool) (s : State) : (s.emit b).frame = s.frame := rfl
@[simp] theorem State.emit_fvalid (b : Bool) (s : State) : (s.emit b).fvalid = s.fvalid := rfl
@[simp] theorem State.emit_busy (b : Bool) (s : State) : (s.emit b).busy = s.busy := rfl
@[simp] theorem State.emit_done (b : Bool) (s : State) : (s.emit b).done = s.done := rfl
@[simp] theorem State.emit_pos (b : Bool) (s : State) : (s.emit b).pos = s.pos := rfl
@[simp] theorem State.emit_err (b : Bool) (s : State) : (s.emit b).err = s.err := rfl
@[simp] theorem State.emit_signPol (b : Bool) (s : State) : (s.emit b).signPol = s.signPol := rfl
@[simp] theorem State.emit_clampEn (b : Bool) (s : State) : (s.emit b).clampEn = s.clampEn := rfl
@[simp] theorem State.emit_params (b : Bool) (s : State) : (s.emit b).params = s.params := rfl
@[simp] theorem State.emit_inputs (b : Bool) (s : State) : (s.emit b).inputs = s.inputs := rfl
@[simp] theorem State.emit_draws (b : Bool) (s : State) : (s.emit b).draws = s.draws := rfl
@[simp] theorem State.emit_trace (b : Bool) (s : State) : (s.emit b).trace = s.trace ++ [b] := rfl

/-! ### presentWord -/

@[simp] theorem State.presentWord_frame (w : CmdWord) (s : State) : (s.presentWord w).frame = s.frame := rfl
@[simp] theorem State.presentWord_fvalid (w : CmdWord) (s : State) : (s.presentWord w).fvalid = s.fvalid := rfl
@[simp] theorem State.presentWord_busy (w : CmdWord) (s : State) : (s.presentWord w).busy = false := rfl
@[simp] theorem State.presentWord_done (w : CmdWord) (s : State) : (s.presentWord w).done = s.done := rfl
@[simp] theorem State.presentWord_pos (w : CmdWord) (s : State) : (s.presentWord w).pos = 0#8 := rfl
@[simp] theorem State.presentWord_err (w : CmdWord) (s : State) : (s.presentWord w).err = s.err := rfl
@[simp] theorem State.presentWord_signPol (w : CmdWord) (s : State) : (s.presentWord w).signPol = s.signPol := rfl
@[simp] theorem State.presentWord_clampEn (w : CmdWord) (s : State) : (s.presentWord w).clampEn = s.clampEn := rfl
@[simp] theorem State.presentWord_params (w : CmdWord) (s : State) : (s.presentWord w).params = s.params := rfl
@[simp] theorem State.presentWord_inputs (w : CmdWord) (s : State) : (s.presentWord w).inputs = commandEdge w false :: s.inputs.tail := rfl
@[simp] theorem State.presentWord_draws (w : CmdWord) (s : State) : (s.presentWord w).draws = s.draws := rfl
@[simp] theorem State.presentWord_trace (w : CmdWord) (s : State) : (s.presentWord w).trace = s.trace := rfl

/-! ### presentTick -/

@[simp] theorem State.presentTick_frame (s : State) : (s.presentTick).frame = s.frame := rfl
@[simp] theorem State.presentTick_fvalid (s : State) : (s.presentTick).fvalid = s.fvalid := rfl
@[simp] theorem State.presentTick_busy (s : State) : (s.presentTick).busy = true := rfl
@[simp] theorem State.presentTick_done (s : State) : (s.presentTick).done = s.done := rfl
@[simp] theorem State.presentTick_pos (s : State) : (s.presentTick).pos = s.pos := rfl
@[simp] theorem State.presentTick_err (s : State) : (s.presentTick).err = s.err := rfl
@[simp] theorem State.presentTick_signPol (s : State) : (s.presentTick).signPol = s.signPol := rfl
@[simp] theorem State.presentTick_clampEn (s : State) : (s.presentTick).clampEn = s.clampEn := rfl
@[simp] theorem State.presentTick_params (s : State) : (s.presentTick).params = s.params := rfl
@[simp] theorem State.presentTick_inputs (s : State) : (s.presentTick).inputs = plainEdge true :: s.inputs.tail := rfl
@[simp] theorem State.presentTick_draws (s : State) : (s.presentTick).draws = s.draws := rfl
@[simp] theorem State.presentTick_trace (s : State) : (s.presentTick).trace = s.trace := rfl

/-! ### clearDone -/

@[simp] theorem State.clearDone_frame (s : State) : (s.clearDone).frame = s.frame := rfl
@[simp] theorem State.clearDone_fvalid (s : State) : (s.clearDone).fvalid = s.fvalid := rfl
@[simp] theorem State.clearDone_busy (s : State) : (s.clearDone).busy = s.busy := rfl
@[simp] theorem State.clearDone_done (s : State) : (s.clearDone).done = false := rfl
@[simp] theorem State.clearDone_pos (s : State) : (s.clearDone).pos = s.pos := rfl
@[simp] theorem State.clearDone_err (s : State) : (s.clearDone).err = s.err := rfl
@[simp] theorem State.clearDone_signPol (s : State) : (s.clearDone).signPol = s.signPol := rfl
@[simp] theorem State.clearDone_clampEn (s : State) : (s.clearDone).clampEn = s.clampEn := rfl
@[simp] theorem State.clearDone_params (s : State) : (s.clearDone).params = s.params := rfl
@[simp] theorem State.clearDone_inputs (s : State) : (s.clearDone).inputs = s.inputs := rfl
@[simp] theorem State.clearDone_draws (s : State) : (s.clearDone).draws = s.draws := rfl
@[simp] theorem State.clearDone_trace (s : State) : (s.clearDone).trace = s.trace := rfl

/-! ### startTx -/

@[simp] theorem State.startTx_frame (s : State) : (s.startTx).frame = s.frame := rfl
@[simp] theorem State.startTx_fvalid (s : State) : (s.startTx).fvalid = s.fvalid := rfl
@[simp] theorem State.startTx_busy (s : State) : (s.startTx).busy = true := rfl
@[simp] theorem State.startTx_done (s : State) : (s.startTx).done = s.done := rfl
@[simp] theorem State.startTx_pos (s : State) : (s.startTx).pos = 0#8 := rfl
@[simp] theorem State.startTx_err (s : State) : (s.startTx).err = 0#3 := rfl
@[simp] theorem State.startTx_signPol (s : State) : (s.startTx).signPol = s.signPol := rfl
@[simp] theorem State.startTx_clampEn (s : State) : (s.startTx).clampEn = s.clampEn := rfl
@[simp] theorem State.startTx_params (s : State) : (s.startTx).params = s.params := rfl
@[simp] theorem State.startTx_inputs (s : State) : (s.startTx).inputs = s.inputs := rfl
@[simp] theorem State.startTx_draws (s : State) : (s.startTx).draws = s.draws := rfl
@[simp] theorem State.startTx_trace (s : State) : (s.startTx).trace = s.trace := rfl

/-! ### finishTx -/

@[simp] theorem State.finishTx_frame (s : State) : (s.finishTx).frame = s.frame := rfl
@[simp] theorem State.finishTx_fvalid (s : State) : (s.finishTx).fvalid = s.fvalid := rfl
@[simp] theorem State.finishTx_busy (s : State) : (s.finishTx).busy = false := rfl
@[simp] theorem State.finishTx_done (s : State) : (s.finishTx).done = true := rfl
@[simp] theorem State.finishTx_pos (s : State) : (s.finishTx).pos = 0#8 := rfl
@[simp] theorem State.finishTx_err (s : State) : (s.finishTx).err = s.err := rfl
@[simp] theorem State.finishTx_signPol (s : State) : (s.finishTx).signPol = s.signPol := rfl
@[simp] theorem State.finishTx_clampEn (s : State) : (s.finishTx).clampEn = s.clampEn := rfl
@[simp] theorem State.finishTx_params (s : State) : (s.finishTx).params = s.params := rfl
@[simp] theorem State.finishTx_inputs (s : State) : (s.finishTx).inputs = s.inputs := rfl
@[simp] theorem State.finishTx_draws (s : State) : (s.finishTx).draws = s.draws := rfl
@[simp] theorem State.finishTx_trace (s : State) : (s.finishTx).trace = s.trace := rfl

/-! ### advance -/

@[simp] theorem State.advance_frame (s : State) : (s.advance).frame = s.frame := rfl
@[simp] theorem State.advance_fvalid (s : State) : (s.advance).fvalid = s.fvalid := rfl
@[simp] theorem State.advance_busy (s : State) : (s.advance).busy = s.busy := rfl
@[simp] theorem State.advance_done (s : State) : (s.advance).done = s.done := rfl
@[simp] theorem State.advance_pos (s : State) : (s.advance).pos = s.pos + 1#8 := rfl
@[simp] theorem State.advance_err (s : State) : (s.advance).err = s.err := rfl
@[simp] theorem State.advance_signPol (s : State) : (s.advance).signPol = s.signPol := rfl
@[simp] theorem State.advance_clampEn (s : State) : (s.advance).clampEn = s.clampEn := rfl
@[simp] theorem State.advance_params (s : State) : (s.advance).params = s.params := rfl
@[simp] theorem State.advance_inputs (s : State) : (s.advance).inputs = s.inputs := rfl
@[simp] theorem State.advance_draws (s : State) : (s.advance).draws = s.draws := rfl
@[simp] theorem State.advance_trace (s : State) : (s.advance).trace = s.trace := rfl

/-! ### popInput -/

@[simp] theorem State.popInput_frame (s : State) : (s.popInput).frame = s.frame := by unfold State.popInput; split <;> simp_all
@[simp] theorem State.popInput_fvalid (s : State) : (s.popInput).fvalid = s.fvalid := by unfold State.popInput; split <;> simp_all
@[simp] theorem State.popInput_busy (s : State) : (s.popInput).busy = s.busy := by unfold State.popInput; split <;> simp_all
@[simp] theorem State.popInput_done (s : State) : (s.popInput).done = s.done := by unfold State.popInput; split <;> simp_all
@[simp] theorem State.popInput_pos (s : State) : (s.popInput).pos = s.pos := by unfold State.popInput; split <;> simp_all
@[simp] theorem State.popInput_err (s : State) : (s.popInput).err = s.err := by unfold State.popInput; split <;> simp_all
@[simp] theorem State.popInput_signPol (s : State) : (s.popInput).signPol = s.signPol := by unfold State.popInput; split <;> simp_all
@[simp] theorem State.popInput_clampEn (s : State) : (s.popInput).clampEn = s.clampEn := by unfold State.popInput; split <;> simp_all
@[simp] theorem State.popInput_params (s : State) : (s.popInput).params = s.params := by unfold State.popInput; split <;> simp_all
@[simp] theorem State.popInput_inputs (s : State) : (s.popInput).inputs = s.inputs.tail := by unfold State.popInput; split <;> simp_all
@[simp] theorem State.popInput_trace (s : State) : (s.popInput).trace = s.trace := by unfold State.popInput; split <;> simp_all

/-! ### raise -/

@[simp] theorem State.raise_busy (E : BlockError) (s : State) : (s.raise E).busy = s.busy := by cases E <;> rfl
@[simp] theorem State.raise_done (E : BlockError) (s : State) : (s.raise E).done = s.done := by cases E <;> rfl
@[simp] theorem State.raise_pos (E : BlockError) (s : State) : (s.raise E).pos = s.pos := by cases E <;> rfl
@[simp] theorem State.raise_err (E : BlockError) (s : State) : (s.raise E).err = E.code := by cases E <;> rfl
@[simp] theorem State.raise_signPol (E : BlockError) (s : State) : (s.raise E).signPol = s.signPol := by cases E <;> rfl
@[simp] theorem State.raise_clampEn (E : BlockError) (s : State) : (s.raise E).clampEn = s.clampEn := by cases E <;> rfl
@[simp] theorem State.raise_params (E : BlockError) (s : State) : (s.raise E).params = s.params := by cases E <;> rfl
@[simp] theorem State.raise_inputs (E : BlockError) (s : State) : (s.raise E).inputs = s.inputs := by cases E <;> rfl
@[simp] theorem State.raise_draws (E : BlockError) (s : State) : (s.raise E).draws = s.draws := by cases E <;> rfl
@[simp] theorem State.raise_trace (E : BlockError) (s : State) : (s.raise E).trace = s.trace := by cases E <;> rfl

/-! ### raiseIllegal -/

@[simp] theorem State.raiseIllegal_frame (w : CmdWord) (s : State) : (s.raiseIllegal w).frame = s.frame := rfl
@[simp] theorem State.raiseIllegal_fvalid (w : CmdWord) (s : State) : (s.raiseIllegal w).fvalid = s.fvalid := rfl
@[simp] theorem State.raiseIllegal_busy (w : CmdWord) (s : State) : (s.raiseIllegal w).busy = s.busy := rfl
@[simp] theorem State.raiseIllegal_done (w : CmdWord) (s : State) : (s.raiseIllegal w).done = s.done := rfl
@[simp] theorem State.raiseIllegal_pos (w : CmdWord) (s : State) : (s.raiseIllegal w).pos = s.pos := rfl
@[simp] theorem State.raiseIllegal_err (w : CmdWord) (s : State) : (s.raiseIllegal w).err = 6#3 := rfl
@[simp] theorem State.raiseIllegal_signPol (w : CmdWord) (s : State) : (s.raiseIllegal w).signPol = s.signPol := rfl
@[simp] theorem State.raiseIllegal_clampEn (w : CmdWord) (s : State) : (s.raiseIllegal w).clampEn = s.clampEn := rfl
@[simp] theorem State.raiseIllegal_params (w : CmdWord) (s : State) : (s.raiseIllegal w).params = s.params := rfl
@[simp] theorem State.raiseIllegal_inputs (w : CmdWord) (s : State) : (s.raiseIllegal w).inputs = s.inputs := rfl
@[simp] theorem State.raiseIllegal_draws (w : CmdWord) (s : State) : (s.raiseIllegal w).draws = s.draws := rfl
@[simp] theorem State.raiseIllegal_trace (w : CmdWord) (s : State) : (s.raiseIllegal w).trace = s.trace := rfl

/-- A free sample is counted; a given one is not. -/
theorem State.popInput_draws (s : State) :
    s.popInput.draws = if s.inputs = [] then s.draws + 1 else s.draws := by
  unfold State.popInput; split <;> simp_all

/-- With a sample at hand, taking it only shortens the list. -/
theorem State.popInput_cons {s : State} {i : PortIn} {rest : List PortIn} (h : s.inputs = i :: rest) :
    s.popInput = { s with inputs := rest } := by
  unfold State.popInput; simp [h]

/-- An illegal word only writes `ERR`. -/
theorem State.raiseIllegal_eq (w : CmdWord) (s : State) : s.raiseIllegal w = { s with err := 6#3 } := rfl

end Sys2Proof.Machine
end

