-- ==== Sys2Proof/Laws/Ops.lean ====
section
/-! SUPPORT. What the shared operations can do: the tables in canonical form, error entry, the edge, the step. -/

namespace Sys2Proof.Machine

/-! ### Tables -/

theorem mem_of_lookup_eq_some {κ β : Type} [BEq κ] [LawfulBEq κ] {l : List (κ × β)} {k : κ} {v : β}
    (h : l.lookup k = some v) : (k, v) ∈ l := by
  induction l with
  | nil => simp at h
  | cons a l ih =>
    obtain ⟨k', v'⟩ := a
    by_cases hk : k == k'
    · have := eq_of_beq hk
      simp_all
    · simp [List.lookup_cons, hk] at h
      exact List.mem_cons_of_mem _ (ih h)

/-- Where the keys rise, a listed pair is the one the lookup finds. -/
theorem lookup_eq_some_of_mem {κ β : Type} [BEq κ] [LawfulBEq κ] {lt : κ → κ → Prop} (irr : ∀ a, ¬ lt a a)
    {l : List (κ × β)} (hp : l.Pairwise fun a b => lt a.1 b.1) {k : κ} {v : β} (h : (k, v) ∈ l) :
    l.lookup k = some v := by
  induction l with
  | nil => simp at h
  | cons a l ih =>
    obtain ⟨k', v'⟩ := a
    rw [List.pairwise_cons] at hp
    rcases List.mem_cons.1 h with h | h
    · cases h; simp
    · have hlt := hp.1 _ h
      have hne : (k == k') = false := by
        rw [beq_eq_false_iff_ne]; rintro rfl; exact irr _ hlt
      simpa [List.lookup_cons, hne] using ih hp.2 h

/-- `M` holds an entry at `e` exactly when the lookup finds it. -/
theorem readMrom_eq_some_iff {q : Params} (hq : q.wf) {e : Int} {v : Word12} :
    readMrom q e = some v ↔ (e, v) ∈ q.m :=
  ⟨mem_of_lookup_eq_some, lookup_eq_some_of_mem (fun a => lt_irrefl a) hq.1⟩

/-- `HOFF` holds an entry at `h` exactly when the lookup finds it. -/
theorem readHrom_eq_some_iff {q : Params} (hq : q.wf) {h : Byte} {v : Word12} :
    readHrom q h = some v ↔ (h, v) ∈ q.hoff :=
  ⟨mem_of_lookup_eq_some, lookup_eq_some_of_mem (fun a => BitVec.lt_irrefl a) hq.2.2.1⟩

/-- `M_MIN` is in `dom(M)` and no key is below it. -/
theorem firstMrom_least {q : Params} (hq : q.wf) {x : Int × Word12} (h : firstMrom q = some x) :
    x ∈ q.m ∧ ∀ y ∈ q.m, x.1 ≤ y.1 := by
  obtain ⟨rest, hm⟩ := List.head?_eq_some_iff.1 h
  have hp := hq.1
  rw [hm, List.pairwise_cons] at hp
  refine ⟨by simp [hm], fun y hy => ?_⟩
  rw [hm] at hy
  rcases List.mem_cons.1 hy with rfl | hy
  · exact le_refl _
  · exact (hp.1 y hy).le

/-- `M_MAX` is in `dom(M)` and no key is above it. -/
theorem lastMrom_greatest {q : Params} (hq : q.wf) {x : Int × Word12} (h : lastMrom q = some x) :
    x ∈ q.m ∧ ∀ y ∈ q.m, y.1 ≤ x.1 := by
  obtain ⟨front, hm⟩ := List.getLast?_eq_some_iff.1 h
  have hp := hq.1
  rw [hm, List.pairwise_append] at hp
  refine ⟨by simp [hm], fun y hy => ?_⟩
  rw [hm] at hy
  rcases List.mem_append.1 hy with hy | hy
  · exact (hp.2.2 y hy x (by simp)).le
  · exact le_of_eq (by rw [List.mem_singleton.1 hy])

theorem total_le {q : Params} (hq : q.wf) : total q ≤ 255 := by
  have := hq.2.2.2
  simp only [total, preLen]; omega

theorem total_ge (q : Params) : 128 ≤ total q := by simp only [total]; omega

end Sys2Proof.Machine

namespace Sys2Proof.Config

open Sys2Proof.Machine

/-- The OPEN parameters, tabulated, are in canonical form, whatever they are. -/
theorem params_wf : params.wf := by
  refine ⟨?_, ?_, ?_, ?_⟩
  · refine List.Pairwise.filterMap _ ?_ (List.pairwise_lt_range (n := 199))
    intro a b hab x hx y hy
    simp only [Option.map_eq_some_iff] at hx hy
    obtain ⟨_, _, rfl⟩ := hx
    obtain ⟨_, _, rfl⟩ := hy
    show (a : Int) - 99 < (b : Int) - 99
    omega
  · intro x hx
    simp only [params, List.mem_filterMap, List.mem_range, Option.map_eq_some_iff] at hx
    obtain ⟨k, hk, _, _, rfl⟩ := hx
    constructor <;> (simp only; omega)
  · have hlt : (List.range 256).Pairwise fun a b => a < b ∧ b < 256 := by
      refine List.Pairwise.imp_of_mem ?_ (List.pairwise_lt_range (n := 256))
      intro a b _ hb hab
      exact ⟨hab, List.mem_range.1 hb⟩
    refine List.Pairwise.filterMap _ ?_ hlt
    intro a b hab x hx y hy
    simp only [Option.map_eq_some_iff] at hx hy
    obtain ⟨_, _, rfl⟩ := hx
    obtain ⟨_, _, rfl⟩ := hy
    show BitVec.ofNat 8 a < BitVec.ofNat 8 b
    simp only [BitVec.lt_def, BitVec.toNat_ofNat]
    omega
  · have := preLen.isLt
    simp only [params, List.length_map, List.length_range]; omega

end Sys2Proof.Config

namespace Sys2Proof.Machine

/-! ### Error entry -/

/-- All that `raise` can do (`60_exceptions.md` R231). -/
theorem State.raise_eq (E : BlockError) (s : State) :
    s.raise E = { s with err := E.code } ∨
    s.raise E = { s with frame := zeroFrame, fvalid := false, err := E.code } := by
  cases E <;> first | exact .inl rfl | exact .inr rfl

theorem BlockError.code_cases (E : BlockError) : E.code ∈ [1#3, 2#3, 3#3, 4#3, 5#3, 6#3] := by
  cases E <;> simp [BlockError.code]

theorem selectM_error {q : Params} {c : Bool} {e : Int} {E : BlockError} (h : selectM q c e = .error E) :
    E = .lookup e := by
  unfold selectM at h
  split at h
  · cases h
  · split at h
    · split at h
      · split at h
        · cases h
        · split at h <;> cases h; rfl
      · cases h; rfl
    · cases h; rfl

theorem houseOffset_error {q : Params} {h : Byte} {E : BlockError} (he : houseOffset q h = .error E) :
    E = .house h := by
  unfold houseOffset at he
  split at he
  · cases he
  · split at he <;> cases he; rfl

/-- All that `FRAMEGEN` can answer: the three errors in the order of their checks, or the message
(`41_frame_codec.md` R131). -/
theorem frameGen_cases (q : Params) (sp ce : Bool) (h : Byte) (c : Nibble) (t : Int) :
    (999 < t.natAbs ∧ frameGen q sp ce h c t = .error (.range t)) ∨
    (t.natAbs ≤ 999 ∧
      ((∃ E, selectM q ce (integerTemp t.natAbs (isNegative t)) = .error E ∧
          frameGen q sp ce h c t = .error (.lookup (integerTemp t.natAbs (isNegative t)))) ∨
       ∃ sel, selectM q ce (integerTemp t.natAbs (isNegative t)) = .ok sel ∧
        ((∃ E, houseOffset q h = .error E ∧ frameGen q sp ce h c t = .error (.house h)) ∨
         ∃ off, houseOffset q h = .ok off ∧
          frameGen q sp ce h c t =
            .ok (messageOf sp h c t (r12Of sel.2 (readProm q (decimalDigit t.natAbs)) off))))) := by
  by_cases ht : 999 < t.natAbs
  · exact .inl ⟨ht, by simp [frameGen, outOfRange, magnitude, ht]⟩
  · refine .inr ⟨by omega, ?_⟩
    have hr : outOfRange t.natAbs = false := decide_eq_false ht
    cases hs : selectM q ce (integerTemp t.natAbs (isNegative t)) with
    | error E =>
      refine .inl ⟨E, rfl, ?_⟩
      have := selectM_error hs
      subst this
      simp [frameGen, hr, magnitude, hs]
    | ok sel =>
      refine .inr ⟨sel, rfl, ?_⟩
      cases ho : houseOffset q h with
      | error E =>
        refine .inl ⟨E, rfl, ?_⟩
        have := houseOffset_error ho
        subst this
        simp [frameGen, hr, magnitude, hs, ho]
      | ok off => exact .inr ⟨off, rfl, by simp [frameGen, hr, magnitude, hs, ho]⟩

/-- The codec's errors all take the frame away. -/
theorem raise_of_frameGen_error {q : Params} {sp ce : Bool} {h : Byte} {c : Nibble} {t : Int} {E : BlockError}
    (hE : frameGen q sp ce h c t = .error E) (s : State) :
    s.raise E = { s with frame := zeroFrame, fvalid := false, err := E.code } ∧ E.code ∈ [2#3, 3#3, 4#3] := by
  rcases frameGen_cases q sp ce h c t with ⟨_, h1⟩ | ⟨_, ⟨_, _, h1⟩ | ⟨_, _, ⟨_, _, h1⟩ | ⟨_, _, h1⟩⟩⟩ <;>
    rw [hE] at h1 <;> cases h1 <;> exact ⟨rfl, by simp [BlockError.code]⟩

/-! ### The edge and the step -/

/-- Every instruction goes on to a next state. -/
theorem exec_next (i : Instr) (s : State) : ∃ t, exec i s = .next t := by
  cases i <;> exact ⟨_, rfl⟩

/-- What `TX` can do (`43_commands.md` R185). -/
theorem execTx_cases (s : State) :
    (s.fvalid = true ∧ execTx s = .next { s with done := false, busy := true, pos := 0#8, err := 0#3 }) ∨
    (s.fvalid = false ∧ execTx s = .next { s with done := false, err := 5#3 }) := by
  cases h : s.fvalid
  · exact .inr ⟨rfl, by simp [execTx, h, State.raise, State.clearDone, BlockError.code]⟩
  · exact .inl ⟨rfl, by simp [execTx, h, State.clearDone, State.startTx]⟩

/-- What the tick can do (`43_commands.md` R190). -/
theorem execTick_cases (s : State) :
    (total s.params - 1 ≤ s.pos.toNat ∧
      execTick s = .next { s with busy := false, done := true, pos := 0#8,
                                  trace := s.trace ++ [bsBit s.params s.frame s.pos.toNat] }) ∨
    (s.pos.toNat < total s.params - 1 ∧
      execTick s = .next { s with pos := s.pos + 1#8,
                                  trace := s.trace ++ [bsBit s.params s.frame s.pos.toNat] }) := by
  by_cases h : total s.params - 1 ≤ s.pos.toNat
  · exact .inl ⟨h, by simp [execTick, atLastBit, h, State.finishTx, State.emit]⟩
  · exact .inr ⟨by omega, by simp [execTick, atLastBit, h, State.advance, State.emit]⟩

/-- All that one edge can do (`43_commands.md` R180). -/
theorem stepEdge_cases (i : PortIn) (s : State) :
    (i.rst = true ∧ stepEdge i s = .next s.resetBlock) ∨
    (i.rst = false ∧ s.busy = true ∧ i.txEn = true ∧ stepEdge i s = execTick s) ∨
    (i.rst = false ∧ s.busy = true ∧ i.txEn = false ∧ stepEdge i s = .next s) ∨
    (i.rst = false ∧ s.busy = false ∧ i.cmdValid = true ∧ stepEdge i s = acceptWord i.cmd s) ∨
    (i.rst = false ∧ s.busy = false ∧ i.cmdValid = false ∧ stepEdge i s = .next s) := by
  cases hr : i.rst <;> cases hb : s.busy <;> cases ht : i.txEn <;> cases hc : i.cmdValid <;>
    simp [stepEdge, edgeArm, hr, hb, ht, hc, exec]

/-- All that an accepted word can do (`43_commands.md` R181, R188). -/
theorem acceptWord_cases (w : CmdWord) (s : State) :
    (∃ i, decode w = .ok i ∧ acceptWord w s = exec i s) ∨
    (∃ r, decode w = .error r ∧ acceptWord w s = .next { s with err := 6#3 }) := by
  cases h : decode w with
  | ok i => exact .inl ⟨i, rfl, by simp [acceptWord, h]⟩
  | error r => exact .inr ⟨r, rfl, by simp [acceptWord, h, State.raiseIllegal_eq]⟩

/-- With a sample at hand, the step is that sample's edge. -/
theorem step_cons {s : State} {i : PortIn} {rest : List PortIn} (h : s.inputs = i :: rest) :
    step s = stepEdge i { s with inputs := rest } := by
  simp [step, nextInput, h, State.popInput_cons h]

theorem run_zero (s : State) : run 0 s = .next s := rfl

theorem run_succ {k : Nat} {s t : State} (h : step s = .next t) : run (k + 1) s = run k t := by
  simp only [run, h]

/-- `run` is the host's run of this machine. -/
theorem run_eq_core_run (k : Nat) (s : State) : run k s = Host.Core.run Sys2Proof.core k s := by
  induction k generalizing s with
  | zero => rfl
  | succ k ih =>
    cases h : step s with
    | next t =>
      have hc : Sys2Proof.core.step s = .next t := h
      rw [run_succ h, ih]; simp only [Host.Core.run, hc]; rfl
    | fault r => cases r
    | refused r =>
      have hc : Sys2Proof.core.step s = .refused r := h
      simp only [run, h, Host.Core.run, hc]; rfl

end Sys2Proof.Machine
end

