-- ==== Sys2Proof/Laws/Codec.lean ====
section
/-! SUPPORT. Small lemmas of the datapath: nibbles, digits, the bytes of a message, lengths of bit sequences. -/

namespace Sys2Proof.Machine

/-! ### Nibbles -/

@[simp] theorem hi_pack (x y : Nibble) : hi (pack x y) = x := by
  ext i hi'
  simp only [hi, pack, BitVec.getElem_extractLsb', BitVec.getLsbD_append]
  rw [if_neg (by omega)]
  simp [hi']

@[simp] theorem lo_pack (x y : Nibble) : lo (pack x y) = y := by
  ext i hi'
  simp only [lo, pack, BitVec.getElem_extractLsb', BitVec.getLsbD_append]
  rw [if_pos (by omega)]
  simp [hi']

@[simp] theorem hi_swapLanes (b : Byte) : hi (swapLanes b) = lo b := by simp [swapLanes]

@[simp] theorem lo_swapLanes (b : Byte) : lo (swapLanes b) = hi b := by simp [swapLanes]

theorem toNat_pack (x y : Nibble) : (pack x y).toNat = x.toNat * 16 + y.toNat := by
  have hy := y.isLt
  simp only [pack, BitVec.toNat_append]
  rw [← Nat.shiftLeft_add_eq_or_of_lt hy, Nat.shiftLeft_eq]

theorem toNat_hi (b : Byte) : (hi b).toNat = b.toNat / 16 := by
  have hb := b.isLt
  simp only [hi, BitVec.extractLsb'_toNat, Nat.shiftRight_eq_div_pow]
  omega

theorem toNat_lo (b : Byte) : (lo b).toNat = b.toNat % 16 := by
  simp [lo, BitVec.extractLsb'_toNat]

@[simp] theorem pack_hi_lo (b : Byte) : pack (hi b) (lo b) = b := by
  apply BitVec.eq_of_toNat_eq
  rw [toNat_pack, toNat_hi, toNat_lo]; omega

/-! ### Digits -/

theorem bcdLow_le (a : Nat) : bcdLow a ≤ 9 := by unfold bcdLow; omega

theorem bcdMid_le (a : Nat) : bcdMid a ≤ 9 := by unfold bcdMid; omega

theorem bcdHigh_le {a : Nat} (h : a ≤ 999) : bcdHigh a ≤ 9 := by unfold bcdHigh; omega

theorem toNat_bcdNibble {n : Nat} (h : n ≤ 9) : (bcdNibble n).toNat = n := by
  simp only [bcdNibble, BitVec.toNat_ofNat]; omega

/-! ### Lengths -/

@[simp] theorem length_expand (r : Byte) : (expand r).length = 8 := rfl

@[simp] theorem length_logical (F : Frame) : (logical F).length = 64 := by
  simp [logical, List.length_flatMap]

@[simp] theorem length_payload (F : Frame) : (payload F).length = 128 := by
  simp [payload, List.length_flatMap, manch]

end Sys2Proof.Machine
end

