-- ==== Sys2Proof/Laws/PerInstr.lean ====
section
/-! SUPPORT. A law of every instruction as syntax: the opcode of its word (`30_encoding.md` R72). -/

namespace Sys2Proof.Laws.WordOpcode

/-- The opcode column of `30_encoding.md` R72; the tick has none (R73). -/
def opcodeOf : Instr → Option (BitVec 3)
  | .nop => some 0b000#3
  | .enc _ _ _ => some 0b001#3
  | .ldf _ _ _ _ _ _ _ _ => some 0b010#3
  | .tx => some 0b011#3
  | .enctx _ _ _ => some 0b100#3
  | .cfgw _ _ => some 0b101#3
  | .reserved110 _ => some 0b110#3
  | .reserved111 _ => some 0b111#3
  | .tick => none

/-- `CW[2:0]` of the instruction's word is its opcode. -/
def Statement (i : Instr) : Prop := (encode i).map opField = opcodeOf i

/-- The opcode is the last part of a concatenation. -/
theorem opField_append (x : BitVec 64) (op : BitVec 3) : opField (x ++ op : BitVec (64 + 3)) = op := by
  apply BitVec.eq_of_toNat_eq
  have hop := op.isLt
  show (x ++ op : BitVec (64 + 3)).toNat >>> 0 % 2 ^ 3 = op.toNat
  rw [BitVec.toNat_append, ← Nat.shiftLeft_add_eq_or_of_lt hop, Nat.shiftLeft_eq, Nat.shiftRight_zero]
  omega

theorem nop : Statement .nop := by rfl
theorem enc (house : Byte) (channel : Nibble) (t10 : Int) : Statement (.enc house channel t10) :=
  congrArg some (opField_append _ _)
theorem ldf (f0 f1 f2 f3 f4 f5 f6 f7 : Byte) : Statement (.ldf f0 f1 f2 f3 f4 f5 f6 f7) :=
  congrArg some (opField_append _ _)
theorem tx : Statement .tx := by rfl
theorem enctx (house : Byte) (channel : Nibble) (t10 : Int) : Statement (.enctx house channel t10) :=
  congrArg some (opField_append _ _)
theorem cfgw (signPol clampEn : Bool) : Statement (.cfgw signPol clampEn) :=
  congrArg some (opField_append _ _)
theorem reserved110 (payload : Payload) : Statement (.reserved110 payload) :=
  congrArg some (opField_append _ _)
theorem reserved111 (payload : Payload) : Statement (.reserved111 payload) :=
  congrArg some (opField_append _ _)
theorem tick : Statement .tick := by rfl

end Sys2Proof.Laws.WordOpcode
end

