-- ==== Sys2Proof/Tests/Slice0.lean ====
section
/-! SUPPORT. Tests of single operations and single steps, and witnesses that the hypotheses of the obligations can be
met. Expected values are those of `95_test_vectors.md`; its rows are named in the comments. -/

namespace Sys2Proof.Tests

open Sys2Proof Sys2Proof.Machine

/-! ### Test data: TCFG of `95_test_vectors.md` section 2, with the entries of `M` the tests use -/

/-- `5555555599`, most significant bit first. -/
def preambleTcfg : List Bool := ((BitVec.toNat 0x5555555599#40).bits ++ [false]).reverse

def tcfg : Params where
  p := #v[0x000#12, 0x1A7#12, 0x2B3#12, 0x3C9#12, 0x45E#12, 0x5F0#12, 0x60D#12, 0x7E2#12, 0x894#12, 0x96B#12]
  m := [(-20, 0x111#12), (-10, 0x323#12), (-1, 0x500#12), (0, 0x535#12), (18, 0x8EF#12), (20, 0x959#12),
    (50, 0xF8F#12)]
  hoff := [(1#8, 0x000#12), (60#8, 0x5A5#12)]
  refHouse := 247#8
  preamble := preambleTcfg
  signPolReset := false

/-- The same without a preamble, so that `TOTAL = 128`. -/
def tcfg0 : Params := { tcfg with preamble := [] }

/-- The same without an `M` entry. -/
def tcfgEmpty : Params := { tcfg with m := [] }

/-- `G` of section 3.5. -/
def frameG : Frame := #v[0xEC#8, 0x40#8, 0x17#8, 0xF0#8, 0x90#8, 0x20#8, 0x04#8, 0x32#8]

/-- A state written `FRAME / FVALID BUSY DONE / POS / ERR / SIGN_POL CLAMP_EN`, nothing driven and nothing emitted. -/
def st (F : Frame) (fvalid busy done : Bool) (pos : BitVec 8) (err : BitVec 3) (signPol clampEn : Bool) : State where
  frame := F
  fvalid := fvalid
  busy := busy
  done := done
  pos := pos
  err := err
  signPol := signPol
  clampEn := clampEn
  params := tcfg
  inputs := []
  draws := 0
  trace := []

/-- The reset state under TCFG. -/
def sReset : State := st zeroFrame false false false 0#8 0#3 false false
/-- `G` held, idle, after a transmission. -/
def sIdle : State := st frameG true false true 0#8 0#3 false false
/-- `G` in transmission, at bit `k`. -/
def sBusy (k : BitVec 8) : State := st frameG true true false k 0#3 false false

/-- The next state of an outcome. -/
def nextOf : Host.Outcome State Fault Refusal → Option State
  | .next t => some t
  | .fault _ => none
  | .refused _ => none

/-! ### WellFormed -/

theorem test_wf_refuses_enc_1024 : (Instr.enc 247#8 1#4 1024).wf = false := by decide
theorem test_wf_refuses_enctx_below : (Instr.enctx 247#8 1#4 (-1025)).wf = false := by decide
theorem test_wf_takes_the_field : (Instr.enc 0#8 0#4 (-1024)).wf = true ∧ (Instr.enctx 0#8 0#4 1023).wf = true := by
  decide

/-! ### Decode: section 3.4, and words written out from the formats of R71 -/

theorem test_decode_nop : decode 0x00000000000000000#67 = .ok .nop := by decide
theorem test_decode_tx : decode 0x00000000000000003#67 = .ok .tx := by decide
/-- `ENC 247, 1, 209`, field by field: reserved, `temp10`, `channel`, `house`, opcode. -/
theorem test_decode_enc_bits :
    decode (0#41 ++ 0b00011010001#11 ++ 0b0001#4 ++ 0b11110111#8 ++ 0b001#3) = .ok (.enc 247#8 1#4 209) := by decide
theorem test_decode_enc_lowest : decode 0x00000000002000FB9#67 = .ok (.enc 247#8 1#4 (-1024)) := by decide
theorem test_decode_enctx : decode 0x00000000003CA91E4#67 = .ok (.enctx 60#8 2#4 (-107)) := by decide
/-- `LDF 0x0123456789ABCDEF`: `f0` first. -/
theorem test_decode_ldf_bits :
    decode (0x01#8 ++ 0x23#8 ++ 0x45#8 ++ 0x67#8 ++ 0x89#8 ++ 0xAB#8 ++ 0xCD#8 ++ 0xEF#8 ++ 0b010#3) =
      .ok (.ldf 0x01#8 0x23#8 0x45#8 0x67#8 0x89#8 0xAB#8 0xCD#8 0xEF#8) := by decide
theorem test_decode_ldf_word : decode 0x76200BF8481002192#67 =
    .ok (.ldf 0xEC#8 0x40#8 0x17#8 0xF0#8 0x90#8 0x20#8 0x04#8 0x32#8) := by decide
/-- `CFGW 1, 0`: `sign_pol` is bit 3, `clamp_en` bit 4. -/
theorem test_decode_cfgw_bits : decode (0#62 ++ 0b0#1 ++ 0b1#1 ++ 0b101#3) = .ok (.cfgw true false) := by decide
theorem test_decode_cfgw_clamp : decode 0x00000000000000015#67 = .ok (.cfgw false true) := by decide
theorem test_decode_110 : decode 0x7FFFFFFFFFFFFFFFE#67 = .ok (.reserved110 0xFFFFFFFFFFFFFFFF#64) := by decide
theorem test_decode_111 : decode 0x00000000000000007#67 = .ok (.reserved111 0#64) := by decide
theorem test_decode_rejects_reserved_bits :
    decode 0x00000000000000008#67 = .error (.reservedBit 0b000#3) ∧
    decode 0x40000000000000003#67 = .error (.reservedBit 0b011#3) ∧
    decode 0x00000000004688FB9#67 = .error (.reservedBit 0b001#3) ∧
    decode 0x40000000000688FBC#67 = .error (.reservedBit 0b100#3) ∧
    decode 0x00000000000000025#67 = .error (.reservedBit 0b101#3) := by decide
/-- No word selects two rows of the opcode map. -/
theorem test_rows_disjoint :
    opcodeMap.Pairwise fun a b => (a.pattern ^^^ b.pattern) &&& a.mask &&& b.mask ≠ 0#67 := by decide
theorem test_encode_enc : encode (.enc 60#8 2#4 (-107)) = some 0x00000000003CA91E1#67 := by decide
theorem test_encode_ldf : encode (.ldf 0x01#8 0x23#8 0x45#8 0x67#8 0x89#8 0xAB#8 0xCD#8 0xEF#8) =
    some 0x0091A2B3C4D5E6F7A#67 := by decide
theorem test_table_word_of_tick : decodeTableWord 0 0 = some .tick := by decide
theorem test_table_word_of_enctx : decodeTableWord 72 0x688FBC = some (.enctx 247#8 1#4 209) := by decide

/-! ### Temperature: section 3.1 -/

/-- W2: truncation toward zero; floor would give -11. -/
theorem test_digits_minus_107 :
    integerTemp 107 (isNegative (-107)) = -10 ∧ decimalDigit 107 = 7 ∧
    (bcdLow 107, bcdMid 107, bcdHigh 107) = (7, 0, 1) := by decide
/-- Rows 0 and -1: zero is not negative. -/
theorem test_sign_nibble_at_zero :
    signNibble (isNegative 0) false = 0x0#4 ∧ signNibble (isNegative (-1)) false = 0x8#4 ∧
    signNibble (isNegative 0) true = 0x8#4 ∧ signNibble (isNegative (-1)) true = 0x0#4 := by decide
theorem test_range_boundary : outOfRange (magnitude (-999)) = false ∧ outOfRange (magnitude (-1000)) = true := by
  decide

/-! ### Codec: section 3.2 -/

/-- V1. -/
theorem test_codec_v1 : frameGen tcfg false false 247#8 1#4 209 = .ok frameG := by decide
/-- V2. -/
theorem test_codec_v2 : frameGen tcfg false false 60#8 2#4 (-107) =
    .ok #v[0xEC#8, 0x40#8, 0x2C#8, 0x31#8, 0x70#8, 0x18#8, 0x04#8, 0x64#8] := by decide
/-- V5: a present zero offset. -/
theorem test_codec_v5 : frameGen tcfg false false 1#8 1#4 183 =
    .ok #v[0xEC#8, 0x40#8, 0x11#8, 0x0B#8, 0x38#8, 0x10#8, 0x73#8, 0x26#8] := by decide
/-- V6: the other polarity. -/
theorem test_codec_v6 : frameGen tcfg true false 247#8 1#4 (-107) =
    .ok #v[0xEC#8, 0x40#8, 0x17#8, 0xF4#8, 0x70#8, 0x10#8, 0x14#8, 0xC1#8] := by decide
/-- V21: clamped; the digits are the true ones. -/
theorem test_codec_v21 : frameGen tcfg false true 247#8 1#4 999 =
    .ok #v[0xEC#8, 0x40#8, 0x17#8, 0xF6#8, 0x99#8, 0x90#8, 0x65#8, 0xE4#8] := by decide
/-- V24, V26, V27: a gap is not clamped; the lookup before the house; the range first. -/
theorem test_codec_errors :
    frameGen tcfg false true 247#8 1#4 135 = .error (.lookup 13) ∧
    frameGen tcfg false false 5#8 1#4 600 = .error (.lookup 60) ∧
    frameGen tcfg false false 5#8 1#4 1000 = .error (.range 1000) ∧
    frameGen tcfg false false 5#8 1#4 209 = .error (.house 5#8) := by decide
theorem test_nibble_sum_greatest :
    byte6 (laneSum [0xFF#8, 0xFF#8, 0xFF#8, 0xFF#8, 0xFF#8, 0xFF#8]) = 0x4B#8 := by decide

/-! ### Bitstream: section 3.3 -/

theorem test_reflect_expand : reflect 0xEC#8 = 0xCE#8 ∧
    expand 0xCE#8 = [false, true, true, true, false, false, true, true] := by decide
/-- `PAYLOAD(0123456789ABCDEF)` begins `AA6A9A5A`: read as one number, first bit most significant. -/
theorem test_payload_first_digits :
    (payload #v[0x01#8, 0x23#8, 0x45#8, 0x67#8, 0x89#8, 0xAB#8, 0xCD#8, 0xEF#8]).take 32 =
      (BitVec.toNat 0xAA6A9A5A#32).bits.reverse := by decide
/-- Rows `k = 0, 1, 40, 42, 43, 72, 73, 166, 167` for V1. -/
theorem test_bsbit_rows :
    [0, 1, 40, 42, 43, 72, 73, 166, 167].map (bsBit tcfg frameG) =
      [false, true, true, false, true, false, true, true, false] := by decide

/-! ### Single steps: section 3.5 -/

/-- S2. -/
theorem test_nop_keeps_err : nextOf (exec .nop (st zeroFrame false false false 0#8 2#3 false false)) =
    some (st zeroFrame false false false 0#8 2#3 false false) := by decide
/-- S3. -/
theorem test_enc : nextOf (exec (.enc 247#8 1#4 209) sReset) = some { sReset with frame := frameG, fvalid := true } := by
  decide
/-- S4: the old frame is destroyed, `DONE` kept. -/
theorem test_enc_range_error : nextOf (exec (.enc 247#8 1#4 1000) sIdle) =
    some (st zeroFrame false false true 0#8 3#3 false false) := by decide
/-- S5: `DONE` cleared, `BUSY` stays 0. -/
theorem test_enctx_range_error : nextOf (exec (.enctx 247#8 1#4 1000) sIdle) =
    some (st zeroFrame false false false 0#8 3#3 false false) := by decide
/-- S10. -/
theorem test_enctx : nextOf (exec (.enctx 60#8 2#4 (-107)) sReset) =
    some (st #v[0xEC#8, 0x40#8, 0x2C#8, 0x31#8, 0x70#8, 0x18#8, 0x04#8, 0x64#8] true true false 0#8 0#3 false false) := by
  decide
/-- S7. -/
theorem test_tx : nextOf (exec .tx sIdle) = some (sBusy 0#8) := by decide
/-- S9: `DONE` cleared even though `NoFrame`. -/
theorem test_tx_no_frame : nextOf (exec .tx (st zeroFrame false false true 0#8 3#3 false false)) =
    some (st zeroFrame false false false 0#8 5#3 false false) := by decide
/-- S12. -/
theorem test_ldf : nextOf (exec (.ldf 0x01#8 0x23#8 0x45#8 0x67#8 0x89#8 0xAB#8 0xCD#8 0xEF#8) sIdle) =
    some { sIdle with frame := #v[0x01#8, 0x23#8, 0x45#8, 0x67#8, 0x89#8, 0xAB#8, 0xCD#8, 0xEF#8] } := by decide
/-- S11: a valid frame of zeros. -/
theorem test_ldf_zero : nextOf (exec (.ldf 0#8 0#8 0#8 0#8 0#8 0#8 0#8 0#8)
    (st zeroFrame false false false 0#8 4#3 false false)) = some (st zeroFrame true false false 0#8 0#3 false false) := by
  decide
/-- S13: the frame is not computed again. -/
theorem test_cfgw : nextOf (exec (.cfgw true true) (st frameG true false false 0#8 6#3 false false)) =
    some (st frameG true false false 0#8 0#3 true true) := by decide
/-- S14. -/
theorem test_reserved110 : nextOf (acceptWord 0x00000000000000006#67 (st frameG true false true 0#8 0#3 true false)) =
    some (st frameG true false true 0#8 6#3 true false) := by decide
theorem test_reserved111 : nextOf (acceptWord 0x00000000000000007#67 sIdle) = some { sIdle with err := 6#3 } := by
  decide
/-- S15: not an `ENCTX`. -/
theorem test_reserved_bit_word : nextOf (acceptWord 0x40000000000688FBC#67 sIdle) = some { sIdle with err := 6#3 } := by
  decide
/-- S18. -/
theorem test_tick : nextOf (exec .tick (sBusy 40#8)) = some { sBusy 41#8 with trace := [true] } := by decide
/-- S19: the last bit. -/
theorem test_tick_last : nextOf (exec .tick (sBusy 167#8)) = some { sIdle with trace := [false] } := by decide
/-- S20, S22, S23, S24: at bit 40, no strobe; a command with the strobe; a reserved word; reset. -/
theorem test_edges_while_busy :
    nextOf (stepEdge ⟨false, false, 0#67, false⟩ (sBusy 40#8)) = some (sBusy 40#8) ∧
    nextOf (stepEdge ⟨false, true, 0xFB9#67, true⟩ (sBusy 40#8)) = some { sBusy 41#8 with trace := [true] } ∧
    nextOf (stepEdge ⟨false, true, 6#67, false⟩ (sBusy 40#8)) = some (sBusy 40#8) ∧
    nextOf (stepEdge ⟨true, true, 3#67, true⟩ (sBusy 40#8)) = some sReset := by decide
/-- S26: a strobe without a transmission. -/
theorem test_idle_strobe : nextOf (stepEdge ⟨false, false, 0#67, true⟩ sIdle) = some sIdle := by decide
/-- The output ports in the end state of program A. -/
theorem test_ports_after_program_a :
    outputs sIdle = ⟨true, false, true, true, 0#3, 0#2, 0xEC4017F090200432#64, false, false, false⟩ := by decide

/-! ### Witnesses: for each obligation with hypotheses, concrete values that meet them -/

/-- Frame `FF..FF`. -/
def frameFF : Frame := #v[0xFF#8, 0xFF#8, 0xFF#8, 0xFF#8, 0xFF#8, 0xFF#8, 0xFF#8, 0xFF#8]

theorem witness_DecodeInvertsEncode :
    (Instr.enctx 60#8 2#4 (-1024)).wf = true ∧ (Instr.enctx 60#8 2#4 (-1024)).isCommand = true := by decide
theorem witness_EncodeInvertsDecode : decode 0x00000000001FF8FB9#67 = .ok (.enc 247#8 1#4 1023) := by decide
theorem witness_OpcodeMapDecidesEveryWord : 0x8#67 &&& 0x7FFFFFFFFFFFFFFFF#67 ≠ 0x0#67 ∧
    0x8#67 &&& 0x7FFFFFFFFFC000007#67 ≠ 0x1#67 ∧ 0x8#67 &&& 0x00000000000000007#67 ≠ 0x2#67 ∧
    0x8#67 &&& 0x7FFFFFFFFFFFFFFFF#67 ≠ 0x3#67 ∧ 0x8#67 &&& 0x7FFFFFFFFFC000007#67 ≠ 0x4#67 ∧
    0x8#67 &&& 0x7FFFFFFFFFFFFFFE7#67 ≠ 0x5#67 := by decide
/-- Each clause at its lowest reserved bit: 3, 26, 5; an `LDF` word; a rejected word. -/
theorem witness_ReservedBitMakesWordIllegal :
    (opField 0x8#67 = 0b000#3 ∧ BitVec.getLsbD 0x8#67 3 = true) ∧
    (opField 0x4000001#67 = 0b001#3 ∧ BitVec.getLsbD 0x4000001#67 26 = true) ∧
    (opField 0x25#67 = 0b101#3 ∧ BitVec.getLsbD 0x25#67 5 = true) ∧ opField 0x2#67 = 0b010#3 ∧
    decode 0x8#67 = .error (.reservedBit 0b000#3) := by decide
theorem witness_ScriptLinesDriveTheirEdges : t10Fits (-1024) ∧ t10Fits 1023 := by decide
theorem witness_DigitViewsAgree : (999 : Int).natAbs ≤ 999 ∧ (-999 : Int).natAbs ≤ 999 := by decide
/-- A present entry; just below and just above the keys; a gap, an empty table, clamping off. -/
theorem witness_MIndexSelection : tcfg.wf ∧ tcfgEmpty.wf ∧ (20, 0x959#12) ∈ tcfg.m ∧
    ((-20, 0x111#12) ∈ tcfg.m ∧ (∀ x ∈ tcfg.m, -20 ≤ x.1) ∧ (-21 : Int) < -20) ∧
    ((50, 0xF8F#12) ∈ tcfg.m ∧ (∀ x ∈ tcfg.m, x.1 ≤ 50) ∧ (50 : Int) < 51) ∧
    ((∀ x ∈ tcfg.m, x.1 ≠ 13) ∧ (∃ x ∈ tcfg.m, x.1 < 13) ∧ ∃ x ∈ tcfg.m, 13 < x.1) ∧ tcfgEmpty.m = [] ∧
    frameGen tcfg false true 247#8 1#4 (-215) =
      .ok #v[0xEC#8, 0x40#8, 0x17#8, 0xF4#8, 0x51#8, 0x28#8, 0x94#8, 0xE1#8] := by decide
theorem witness_HouseOffsetSelection : tcfg.wf ∧ (60#8, 0x5A5#12) ∈ tcfg.hoff ∧
    ((∀ x ∈ tcfg.hoff, x.1 ≠ 247#8) ∧ 247#8 = tcfg.refHouse) ∧
    ((∀ x ∈ tcfg.hoff, x.1 ≠ 5#8) ∧ 5#8 ≠ tcfg.refHouse) :=
  ⟨by decide, by decide, ⟨by simp [tcfg], rfl⟩, by simp [tcfg], by decide⟩
theorem witness_MessageNibbles : frameGen tcfg false false 247#8 1#4 209 = .ok frameG := by decide
theorem witness_ChecksumRecomputes : frameGen tcfg true true 247#8 1#4 209 =
    .ok #v[0xEC#8, 0x40#8, 0x17#8, 0xF0#8, 0x90#8, 0x28#8, 0x84#8, 0x32#8] := by decide
theorem witness_GoldenVectorForAnyTables : frameGen tcfg false false 247#8 1#4 209 = .ok frameG := by decide
theorem witness_ClosedFormIsStreamBit : 0 < total tcfg ∧ 167 < total tcfg := by decide
theorem witness_PayloadCanBeUndone : payload frameG = payload frameG := by decide
theorem witness_BitsTextGroupsByFour : bitsText [true, false, true, false] = some ['A'] := by decide
theorem witness_OutputPortsShowTheState : (sBusy 167#8).busy = true ∧
    (sBusy 167#8).pos.toNat < total (sBusy 167#8).params ∧ sIdle.busy = false ∧
    SafeState sReset ∧ (outputs sReset).fvalid = false :=
  ⟨by decide, by decide, by decide,
    ⟨by decide, by decide, by decide, by decide, by decide, by decide, by decide, by decide⟩, by decide⟩
/-- Range, table, house, and a message, at the edges of the range and of the table. -/
theorem witness_EncStoresMessageOrError : 999 < (1000 : Int).natAbs ∧
    ((999 : Int).natAbs ≤ 999 ∧ selectM sReset.params sReset.clampEn ((999 : Int).tdiv 10) = .error (.lookup 99)) ∧
    ((509 : Int).natAbs ≤ 999 ∧ selectM sReset.params sReset.clampEn ((509 : Int).tdiv 10) = .ok (50, 0xF8F#12) ∧
      houseOffset sReset.params 5#8 = .error (.house 5#8)) ∧
    houseOffset sReset.params 247#8 = .ok 0x000#12 := by decide
theorem witness_EnctxStartsMessageOrReportsError : 999 < (-1000 : Int).natAbs ∧
    ((-219 : Int).natAbs ≤ 999 ∧ selectM sIdle.params sIdle.clampEn ((-219 : Int).tdiv 10) = .error (.lookup (-21))) ∧
    ((-209 : Int).natAbs ≤ 999 ∧ selectM sIdle.params sIdle.clampEn ((-209 : Int).tdiv 10) = .ok (-20, 0x111#12) ∧
      houseOffset sIdle.params 5#8 = .error (.house 5#8)) ∧
    houseOffset sIdle.params 60#8 = .ok 0x5A5#12 := by decide
theorem witness_TxStartsOrReportsNoFrame : sIdle.fvalid = true ∧ sReset.fvalid = false := by decide
theorem witness_IllegalCommandWritesOnlyErr : decode 0x40000000000000003#67 = .error (.reservedBit 0b011#3) := by decide
/-- The first bit, the last but one, the last. -/
theorem witness_TickEmitsBitAndAdvances : tcfg.wf ∧ (sBusy 0#8).pos.toNat ≠ total tcfg - 1 ∧
    (sBusy 166#8).pos.toNat ≠ total tcfg - 1 ∧ (sBusy 167#8).pos.toNat = total tcfg - 1 ∧
    (sBusy 167#8).pos.toNat < total (sBusy 167#8).params := by decide
/-- One past the end. -/
theorem witness_TickPastTheEndTakesLastBranch : total (sBusy 168#8).params ≤ (sBusy 168#8).pos.toNat := by decide
theorem witness_EnctxIsEncThenTx :
    ((nextOf (exec (.enc 247#8 1#4 209) sReset)).map State.fvalid = some true) ∧
    ((nextOf (exec (.enc 247#8 1#4 1000) sReset)).map State.fvalid = some false) := by decide
theorem witness_RepeatedCommandIsHarmless :
    nextOf (exec (.enc 247#8 1#4 209) sReset) = some { sReset with frame := frameG, fvalid := true } := by decide
theorem witness_ErrIsNotSticky : Instr.tx ≠ .nop ∧ Instr.tx ≠ .tick ∧ nextOf (exec .tx sIdle) = some (sBusy 0#8) := by
  decide
theorem witness_InstructionFrame : (nextOf (exec .nop sIdle)).isSome ∧ (nextOf (exec .tick (sBusy 3#8))).isSome ∧
    (nextOf (exec (.cfgw true true) sIdle)).isSome := by decide

/-- `s` with these samples waiting. -/
def withInputs (s : State) (ins : List PortIn) : State := { s with inputs := ins }

/-- Each of the six arms: reset, tick, hold, a command, a rejected word, idle. -/
theorem witness_StepTakesOneArm :
    (nextInput (withInputs (sBusy 3#8) [resetEdge])).rst = true ∧
    ((nextInput (withInputs (sBusy 3#8) [plainEdge true])).txEn = true ∧ (sBusy 3#8).busy = true) ∧
    (nextInput (withInputs (sBusy 3#8) [plainEdge false])).txEn = false ∧
    ((nextInput (withInputs sIdle [commandEdge 3#67 true])).cmdValid = true ∧ sIdle.busy = false ∧
      decode (nextInput (withInputs sIdle [commandEdge 3#67 true])).cmd = .ok .tx) ∧
    decode (nextInput (withInputs sIdle [commandEdge 8#67 true])).cmd = .error (.reservedBit 0#3) ∧
    (nextInput (withInputs sIdle [plainEdge true])).cmdValid = false := by decide
theorem witness_SampleIsTakenOnce :
    (withInputs sIdle [plainEdge true]).inputs = plainEdge true :: [] ∧ sIdle.inputs = [] := by decide
theorem witness_PlacedWordRunsNext : decodeTableWord 72 0x3 = some .tx ∧ Instr.tx.isCommand = true ∧
    decodeTableWord 0 0 = some .tick := by decide
theorem witness_ResetGivesResetValues : resetEdge.rst = true := by decide
theorem witness_ResetTruncatesTransmission :
    ((sBusy 50#8).busy = true ∧
      (withInputs (sBusy 50#8) [resetEdge, plainEdge true]).inputs = resetEdge :: ([plainEdge true] ++ []) ∧
      resetEdge.rst = true ∧ ∀ i ∈ [plainEdge true], i.cmdValid = false) ∧
    ((sBusy 167#8).pos.toNat < total (sBusy 167#8).params ∧ (plainEdge true).rst = false ∧
      nextOf (stepEdge (plainEdge true) (sBusy 167#8)) = some { sIdle with trace := [false] } ∧
      State.busy { sIdle with trace := [false] } = false) := by decide
theorem witness_BusyIgnoresCommandPort :
    ((sBusy 3#8).busy = true ∧ (plainEdge true).rst = (commandEdge 6#67 true).rst ∧
      (plainEdge true).txEn = (commandEdge 6#67 true).txEn) ∧
    ((sBusy 167#8).pos.toNat = total (sBusy 167#8).params - 1 ∧
      nextOf (stepEdge (plainEdge true) (sBusy 167#8)) = some { sIdle with trace := [false] } ∧
      decode (commandEdge 3#67 false).cmd = .ok .tx) := by decide
/-- By reset and by a command. -/
theorem witness_FrameWriters :
    (nextOf (stepEdge resetEdge (sBusy 3#8)) = some sReset ∧ sReset.frame ≠ (sBusy 3#8).frame) ∧
    ((nextOf (stepEdge (commandEdge 0x7FFFFFFFFFFFFFFFA#67 true) sIdle)).map State.frame = some frameFF ∧
      frameFF ≠ sIdle.frame) := by decide
theorem witness_ConfigurationWriters :
    (nextOf (stepEdge resetEdge { sIdle with clampEn := true })).map State.clampEn = some false ∧
    (nextOf (stepEdge (commandEdge 0xD#67 true) sIdle)).map State.signPol = some true ∧ sIdle.signPol = false := by decide
theorem witness_FlagWriters :
    ((nextOf (stepEdge (commandEdge 3#67 true) sIdle)).map State.busy = some true ∧ sIdle.busy = false) ∧
    ((nextOf (stepEdge (plainEdge true) (sBusy 167#8))).map State.done = some true ∧ (sBusy 167#8).done = false) ∧
    ((nextOf (stepEdge (commandEdge 2#67 true) sReset)).map State.fvalid = some true ∧ sReset.fvalid = false) := by
  decide
theorem witness_ParametersNeverChange :
    nextOf (step (withInputs sIdle [plainEdge true])) = some sIdle := by decide
theorem witness_TraceIsSampledTxBit :
    nextOf (stepEdge (plainEdge true) (sBusy 40#8)) = some { sBusy 41#8 with trace := [true] } ∧
    nextOf (stepEdge (plainEdge true) sIdle) = some sIdle := by decide
theorem witness_ResetMeetsInvariants : (sBusy 3#8).params.wf := by decide
theorem witness_StepKeepsInvariants : SafeState (withInputs (sBusy 167#8) [plainEdge true]) ∧
    nextOf (step (withInputs (sBusy 167#8) [plainEdge true])) = some { sIdle with trace := [false] } :=
  ⟨⟨by decide, by decide, by decide, by decide, by decide, by decide, by decide, by decide⟩, by decide⟩
theorem witness_ReachedStatesAreSafe : sReset.params.wf ∧
    nextOf (run 1 (State.resetBlock (withInputs sIdle [commandEdge 2#67 false]))) =
      some (st zeroFrame true false true 0#8 0#3 false false).clearDone := by decide
/-- The last two bits, with a stall and a refused command between them. -/
theorem witness_BusyRunEmitsRestOfStream :
    let ins := [plainEdge true, plainEdge false, commandEdge 6#67 true]
    tcfg.wf ∧ (withInputs (sBusy 166#8) ins).busy = true ∧
    (withInputs (sBusy 166#8) ins).pos.toNat < total tcfg ∧ (withInputs (sBusy 166#8) ins).inputs = ins ++ [] ∧
    (∀ i ∈ ins, i.rst = false) ∧
    ins.countP (fun i => i.txEn) = total tcfg - (withInputs (sBusy 166#8) ins).pos.toNat ∧
    ins.getLast? = some (commandEdge 6#67 true) ∧ (commandEdge 6#67 true).txEn = true := by decide
/-- One strobe for each of the `TOTAL` bits. -/
theorem witness_EnctxTransmitsItsMessage :
    tcfg0.wf ∧ sReset.busy = false ∧ frameGen tcfg0 false false 247#8 1#4 209 = .ok frameG ∧
    (∀ i ∈ List.replicate 128 (plainEdge true), i.rst = false) ∧
    (List.replicate 128 (plainEdge true)).countP (fun i => i.txEn) = total tcfg0 ∧
    ∀ i, (List.replicate 128 (plainEdge true)).getLast? = some i → i.txEn = true := by
  refine ⟨by decide, by decide, by decide, ?_, ?_, ?_⟩
  · intro i hi; rw [(List.mem_replicate.1 hi).2]; rfl
  · rw [List.countP_replicate]; decide
  · intro i hi; rw [List.getLast?_replicate] at hi; cases hi; rfl
theorem witness_FailedEnctxStaysSilent :
    sIdle.busy = false ∧ t10Fits 1000 ∧
    frameGen sIdle.params sIdle.signPol sIdle.clampEn 247#8 1#4 1000 = .error (.range 1000) ∧
    (withInputs sIdle [commandEdge (wordE 0b100#3 247#8 1#4 1000) true, plainEdge true]).inputs =
      commandEdge (wordE 0b100#3 247#8 1#4 1000) true :: ([plainEdge true] ++ []) ∧
    ∀ i ∈ [plainEdge true], i.rst = false ∧ i.cmdValid = false := by decide

end Sys2Proof.Tests
end

section
/-! The output ports, the `STATUS` view and reset (`10_state.md` R28, R31, R34). The port `tx_bit` is stated against
the bitstream, so the closed form of one stream bit (`42_bitstream_encoder.md` R157) is proved first, stage by stage:
reflection, logical bits, payload, stream. -/

namespace Sys2Proof.Machine

/-! ### The closed form of one stream bit -/

/-- Where every element expands to `n` entries, entry `n * i + j` of the expansion is entry `j` of element `i`'s. -/
theorem getElem?_flatMap_of_length_eq {α β : Type} {f : α → List β} {n : Nat} (hf : ∀ a, (f a).length = n)
    {j : Nat} (hj : j < n) (l : List α) (i : Nat) :
    (l.flatMap f)[n * i + j]? = l[i]?.bind fun a => (f a)[j]? := by
  induction l generalizing i with
  | nil => simp
  | cons a l ih =>
    rw [List.flatMap_cons]
    cases i with
    | zero => rw [List.getElem?_append_left (by rw [hf]; omega)]; simp
    | succ i =>
      have hidx : n * (i + 1) + j = n + (n * i + j) := by rw [Nat.mul_succ]; omega
      rw [hidx, List.getElem?_append_right (by rw [hf]; omega), hf, Nat.add_sub_cancel_left, ih,
        List.getElem?_cons_succ]

/-- The bits of a reflected byte are its logical bits (`30_encoding.md` R83, `42_bitstream_encoder.md` R151). -/
theorem getLsbD_reflect (b : Byte) {j : Nat} (hj : j < 8) : (reflect b).getLsbD j = logicalBit b j := by
  rw [reflect, swapLanes, pack, BitVec.getLsbD_append, logicalBit]
  split
  · simp [hi, *, Nat.add_comm]
  · have hlow : j - 4 < 4 := by omega
    simp [lo, hlow]

theorem getElem?_expand (r : Byte) {j : Nat} (hj : j < 8) : (expand r)[j]? = some (r.getLsbD j) := by
  have hmap : expand r = (List.range 8).map r.getLsbD := rfl
  rw [hmap, List.getElem?_map, List.getElem?_range hj, Option.map_some]

/-- Logical bit `k` is bit `k mod 8` of byte `k div 8` (`42_bitstream_encoder.md` R153). -/
theorem getElem?_logical (F : Frame) {k : Nat} (hk : k < 64) :
    (logical F)[k]? = some (logicalBit (F[k / 8]'(by omega)) (k % 8)) := by
  have hj : k % 8 < 8 := Nat.mod_lt k (by decide)
  have hbyte : F.toList[k / 8]? = some (F[k / 8]'(by omega)) := by
    rw [Vector.getElem?_toList, Vector.getElem?_eq_getElem]
  have hbit := getElem?_flatMap_of_length_eq (fun b => length_expand (reflect b)) hj F.toList (k / 8)
  rwa [Nat.div_add_mod, hbyte, Option.bind_some, getElem?_expand _ hj, getLsbD_reflect _ hj] at hbit

/-- A logical bit is sent as its complement, then itself (`42_bitstream_encoder.md` R154). -/
theorem getElem?_manch (b : Bool) {j : Nat} (hj : j < 2) :
    (manch b)[j]? = some (if j = 0 then !b else b) := by
  obtain rfl | rfl : j = 0 ∨ j = 1 := by omega
  · rfl
  · rfl

theorem getElem?_payload (F : Frame) {m : Nat} (hm : m < 128) : (payload F)[m]? = some (payloadBit F m hm) := by
  have hbit := getElem?_flatMap_of_length_eq (f := manch) (fun _ => rfl) (Nat.mod_lt m (by decide : 0 < 2))
    (logical F) (m / 2)
  have hbyte : m / 2 / 8 = m / 16 := Nat.div_div_eq_div_mul m 2 8
  have hplace : m / 2 % 8 = m % 16 / 2 := by omega
  rw [Nat.div_add_mod, getElem?_logical F (by omega), Option.bind_some,
    getElem?_manch _ (Nat.mod_lt m (by decide))] at hbit
  simpa only [payload, payloadBit, hbyte, hplace] using hbit

/-- Inside the stream, `BSBIT(F, k)` is bit `k` of `BS(F)` (`42_bitstream_encoder.md` R157). -/
theorem getElem?_bitstream (q : Params) (F : Frame) {k : Nat} (hk : k < total q) :
    (bitstream q F)[k]? = some (bsBit q F k) := by
  by_cases hpre : k < preLen q
  · have hread : readPrerom q k = some q.preamble[k] := List.getElem?_eq_getElem hpre
    rw [bitstream, bsBit, hread, List.getElem?_append_left hpre, List.getElem?_eq_getElem hpre]
  · have hread : readPrerom q k = none := List.getElem?_eq_none (Nat.le_of_not_lt hpre)
    have hm : k - preLen q < 128 := by rw [total] at hk; omega
    rw [bitstream, bsBit, hread, List.getElem?_append_right (Nat.le_of_not_lt hpre)]
    exact (getElem?_payload F hm).trans (by rw [dif_pos hm])

/-! ### The packed views -/

/-- `frame_out` carries `FRAME[i]` in bits `63 - 8i : 56 - 8i` (`10_state.md` R31). -/
theorem extractLsb'_frameOut (F : Frame) (i : Fin 8) : (frameOut F).extractLsb' (56 - 8 * i.val) 8 = F[i] := by
  show BitVec.extractLsb' (n := 8 + 8 + 8 + 8 + 8 + 8 + 8 + 8) (56 - 8 * i.val) 8
    (F[0] ++ F[1] ++ F[2] ++ F[3] ++ F[4] ++ F[5] ++ F[6] ++ F[7]) = F[i]
  fin_cases i <;>
    simp (disch := decide) only [BitVec.extractLsb'_append_eq_of_le, BitVec.extractLsb'_append_eq_of_add_le] <;>
    exact BitVec.extractLsb'_eq_self

theorem frameOut_zeroFrame : frameOut zeroFrame = 0#64 := by decide

theorem zeroFrame_getElem (k : Fin 8) : zeroFrame[k] = 0#8 := by
  revert k; decide

theorem cfg_getLsbD (s : State) :
    (outputs s).cfg.getLsbD 0 = s.signPol ∧ (outputs s).cfg.getLsbD 1 = s.clampEn := by
  have hbit (i : Nat) : (outputs s).cfg.getLsbD i =
    BitVec.getLsbD (w := 1 + 1) (BitVec.ofBool s.clampEn ++ BitVec.ofBool s.signPol) i := rfl
  simp only [hbit, BitVec.getLsbD_append]
  simp

theorem statusView_flags (s : State) :
    (statusView s).getLsbD 0 = s.busy ∧ (statusView s).getLsbD 1 = s.done ∧ (statusView s).getLsbD 2 = s.fvalid := by
  have hbit (i : Nat) : (statusView s).getLsbD i = BitVec.getLsbD (w := 3 + 1 + 1 + 1)
    (s.err ++ BitVec.ofBool s.fvalid ++ BitVec.ofBool s.done ++ BitVec.ofBool s.busy) i := rfl
  simp only [hbit, BitVec.getLsbD_append]
  simp

theorem statusView_err (s : State) : (statusView s).extractLsb' 3 3 = s.err := by
  show BitVec.extractLsb' (n := 3 + 1 + 1 + 1) 3 3
    (s.err ++ BitVec.ofBool s.fvalid ++ BitVec.ofBool s.done ++ BitVec.ofBool s.busy) = s.err
  simp (disch := decide) only [BitVec.extractLsb'_append_eq_of_le]
  exact BitVec.extractLsb'_eq_self

/-! ### The serial ports -/

theorem txBit_of_busy {s : State} (h : s.busy = true) : txBit s = bsBit s.params s.frame s.pos.toNat := by
  rw [txBit, h, Bool.true_and]

theorem txBit_of_idle {s : State} (h : s.busy = false) : txBit s = false := by
  rw [txBit, h, Bool.false_and]

theorem txLast_iff (s : State) : txLast s = true ↔ s.busy = true ∧ s.pos.toNat = total s.params - 1 := by
  rw [txLast, Bool.and_eq_true, decide_eq_true_iff]

/-! ### Reset -/

/-- An edge with `rst = 1` is reset, whatever the other ports show (`70_reset_and_hazards.md` R250). -/
theorem stepEdge_of_rst {i : PortIn} (h : i.rst = true) (s : State) : stepEdge i s = .next s.resetBlock := by
  rw [stepEdge, edgeArm, if_pos h]

/-! ### The statements -/

/-- Settles O24. The ports are fields of the state or packed from them; `tx_bit` is the closed form of the stream bit,
and without a valid frame R35 (e) leaves only the zero frame to show. -/
theorem outputPortsShowTheState : Obligations.OutputPortsShowTheState := by
  intro s
  obtain ⟨hsign, hclamp⟩ := cfg_getLsbD s
  refine ⟨rfl, rfl, rfl, rfl, rfl, hsign, hclamp, extractLsb'_frameOut s.frame, rfl, ?_, txBit_of_idle,
    txLast_iff s, ?_⟩
  · intro hbusy hpos
    rw [getElem?_bitstream s.params s.frame hpos, ← txBit_of_busy hbusy]
    rfl
  · intro hsafe hinvalid
    show frameOut s.frame = 0#64
    rw [hsafe.invalidZero hinvalid, frameOut_zeroFrame]

/-- Settles O25: each field is a part of the concatenation at its own place. -/
theorem statusViewBits : Obligations.StatusViewBits := by
  intro s
  obtain ⟨hbusy, hdone, hfvalid⟩ := statusView_flags s
  exact ⟨hbusy, hdone, hfvalid, statusView_err s⟩

/-- Settles O42: the reset arm is taken before any other port is looked at, and `State.resetBlock` writes the values of
R34 and nothing else. -/
theorem resetGivesResetValues : Obligations.ResetGivesResetValues := by
  refine ⟨fun s i hrst => ⟨s.resetBlock, stepEdge_of_rst hrst s, ?_⟩, ?_⟩
  · exact ⟨zeroFrame_getElem, s.resetBlock_fvalid, s.resetBlock_busy, s.resetBlock_done, s.resetBlock_pos,
      s.resetBlock_err, s.resetBlock_signPol, s.resetBlock_clampEn, s.resetBlock_params, s.resetBlock_trace,
      s.resetBlock_inputs, s.resetBlock_draws⟩
  · exact ⟨zeroFrame_getElem, rfl, rfl, rfl, rfl, rfl, rfl, rfl⟩

end Sys2Proof.Machine
end

section
/-! The encoding (`30_encoding.md`): the decoder read by opcode and reserved bits (R71, R72, R75), the script notation
(R88), the nibbles of a message (R78, R81), the symbol table (R82) and the texts (R79, R87). -/

namespace Sys2Proof.Machine

open Sys2Proof.Laws.WordOpcode (opcodeOf)

/-! ### The opcode map: a row is an opcode and the place where the reserved bits begin -/

/-- The lowest reserved bit of the opcode's format: 3 in N, 26 in E, 5 in C; in F, and where the payload is ignored,
there is none below the width of the word (`30_encoding.md` R71, R72). -/
def reservedFrom (op : BitVec 3) : Nat := #v[3, 26, 67, 3, 26, 5, 67, 67][op.toNat]

/-- The instruction a word of an opcode names, whatever its reserved bits (`30_encoding.md` R71, R72). -/
def namedCommand (op : BitVec 3) (w : CmdWord) : Instr :=
  match op with
  | 0b000#3 => .nop
  | 0b001#3 => .enc (houseField w) (channelField w) (t10Operand w)
  | 0b010#3 => .ldf (frameField w 0) (frameField w 1) (frameField w 2) (frameField w 3)
      (frameField w 4) (frameField w 5) (frameField w 6) (frameField w 7)
  | 0b011#3 => .tx
  | 0b100#3 => .enctx (houseField w) (channelField w) (t10Operand w)
  | 0b101#3 => .cfgw (signPolField w) (clampEnField w)
  | 0b110#3 => .reserved110 (payloadField w)
  | 0b111#3 => .reserved111 (payloadField w)

/-- Every reserved bit of the word is 0. -/
abbrev reservedClear (w : CmdWord) : Prop := w >>> reservedFrom (opField w) = 0#67

/-- The mask of a row whose reserved bits begin at `n`: those bits and the opcode. -/
def rowMask (n : Nat) : CmdWord := BitVec.allOnes 67 <<< n ||| (BitVec.allOnes 3).setWidth 67

theorem opcode_cases (op : BitVec 3) :
    op = 0b000#3 ∨ op = 0b001#3 ∨ op = 0b010#3 ∨ op = 0b011#3 ∨
    op = 0b100#3 ∨ op = 0b101#3 ∨ op = 0b110#3 ∨ op = 0b111#3 := by
  revert op; decide

theorem three_le_reservedFrom (op : BitVec 3) : 3 ≤ reservedFrom op := by
  revert op; decide

theorem shiftRight_eq_zero_iff {w : CmdWord} {n : Nat} :
    w >>> n = 0#67 ↔ ∀ j, n ≤ j → w.getLsbD j = false := by
  constructor
  · intro h j hj
    have hbit := congrArg (fun v : CmdWord => v.getLsbD (j - n)) h
    simpa [Nat.add_sub_cancel' hj] using hbit
  · intro h
    ext j
    simpa using h (n + j) (Nat.le_add_right n j)

theorem getLsbD_rowMask {n j : Nat} (hj : j < 67) :
    (rowMask n).getLsbD j = (decide (n ≤ j) || decide (j < 3)) := by
  rw [rowMask, BitVec.getLsbD_or, BitVec.getLsbD_shiftLeft, BitVec.getLsbD_setWidth, BitVec.getLsbD_allOnes,
    BitVec.getLsbD_allOnes]
  by_cases hn : n ≤ j
  · have hshift : j - n < 67 := by omega
    simp [hj, hn, hshift]
  · have hlow : j < n := by omega
    simp [hj, hn, hlow]

theorem getLsbD_opField (w : CmdWord) {j : Nat} (hj : j < 3) : (opField w).getLsbD j = w.getLsbD j := by
  simp [opField, hj]

/-- Mask and match test the opcode and that the bits from `n` on are 0. -/
theorem and_rowMask_eq_iff {n : Nat} (hn : 3 ≤ n) (op : BitVec 3) (w : CmdWord) :
    w &&& rowMask n = op.setWidth 67 ↔ opField w = op ∧ w >>> n = 0#67 := by
  rw [shiftRight_eq_zero_iff]
  constructor
  · intro h
    have hbit (j : Nat) (hj : j < 67) :
        (w.getLsbD j && (decide (n ≤ j) || decide (j < 3))) = op.getLsbD j := by
      have := congrArg (fun v : CmdWord => v.getLsbD j) h
      simpa only [BitVec.getLsbD_and, getLsbD_rowMask hj, BitVec.getLsbD_setWidth, hj, decide_true,
        Bool.true_and] using this
    constructor
    · apply BitVec.eq_of_getLsbD_eq
      intro j hj
      rw [getLsbD_opField w hj]
      simpa [hj] using hbit j (by omega)
    · intro j hj
      by_cases hw : j < 67
      · simpa [hj, BitVec.getLsbD_of_ge op j (by omega)] using hbit j hw
      · exact BitVec.getLsbD_of_ge w j (by omega)
  · rintro ⟨rfl, hzero⟩
    apply BitVec.eq_of_getLsbD_eq
    intro j hj
    rw [BitVec.getLsbD_and, getLsbD_rowMask hj, BitVec.getLsbD_setWidth]
    by_cases hlow : j < 3
    · rw [getLsbD_opField w hlow]
      simp [hlow, hj]
    · by_cases hhigh : n ≤ j
      · simp [hzero j hhigh, BitVec.getLsbD_of_ge (opField w) j (by omega)]
      · simp [hlow, hhigh, BitVec.getLsbD_of_ge (opField w) j (by omega)]

/-- A row of the opcode map selects the words of its opcode with clear reserved bits. -/
theorem selects_iff {r : OpRow} {op : BitVec 3} (hr : r = ⟨rowMask (reservedFrom op), op.setWidth 67⟩)
    (w : CmdWord) : r.selects w = true ↔ opField w = op ∧ w >>> reservedFrom op = 0#67 := by
  rw [hr, OpRow.selects, beq_iff_eq, and_rowMask_eq_iff (three_le_reservedFrom op)]

/-- The decoder by opcode and reserved bits (`30_encoding.md` R72, R75). -/
theorem decode_eq (w : CmdWord) :
    decode w = if reservedClear w then .ok (namedCommand (opField w) w) else .error (.reservedBit (opField w)) := by
  have hnop := selects_iff (r := rowNop) (op := 0b000#3) (by decide) w
  have henc := selects_iff (r := rowEnc) (op := 0b001#3) (by decide) w
  have hldf := selects_iff (r := rowLdf) (op := 0b010#3) (by decide) w
  have htx := selects_iff (r := rowTx) (op := 0b011#3) (by decide) w
  have henctx := selects_iff (r := rowEnctx) (op := 0b100#3) (by decide) w
  have hcfgw := selects_iff (r := rowCfgw) (op := 0b101#3) (by decide) w
  have h110 := selects_iff (r := row110) (op := 0b110#3) (by decide) w
  have h111 := selects_iff (r := row111) (op := 0b111#3) (by decide) w
  simp only [decode, hnop, henc, hldf, htx, henctx, hcfgw, h110, h111, reservedClear, namedCommand]
  rcases opcode_cases (opField w) with h | h | h | h | h | h | h | h <;> simp [h]

theorem decode_eq_ok_iff {w : CmdWord} {i : Instr} :
    decode w = .ok i ↔ reservedClear w ∧ namedCommand (opField w) w = i := by
  rw [decode_eq]
  split
  · next h => rw [Except.ok.injEq, and_iff_right h]
  · next h => simp [h]

theorem decode_eq_error_iff {w : CmdWord} :
    decode w = .error (.reservedBit (opField w)) ↔ ¬ reservedClear w := by
  rw [decode_eq]
  split <;> simp [*]

theorem opcodeOf_namedCommand (op : BitVec 3) (w : CmdWord) : opcodeOf (namedCommand op w) = some op := by
  rcases opcode_cases op with rfl | rfl | rfl | rfl | rfl | rfl | rfl | rfl <;> rfl

/-- Mask and match decide exactly the words that decode to the instruction of the row. -/
theorem masked_eq_iff_decode {w mask pattern : CmdWord} (op : BitVec 3)
    (hmask : mask = rowMask (reservedFrom op)) (hpattern : pattern = op.setWidth 67) :
    w &&& mask = pattern ↔ decode w = .ok (namedCommand op w) := by
  rw [hmask, hpattern, and_rowMask_eq_iff (three_le_reservedFrom op), decode_eq_ok_iff, reservedClear]
  constructor
  · rintro ⟨rfl, hclear⟩
    exact ⟨hclear, rfl⟩
  · rintro ⟨hclear, hnamed⟩
    have hcode := congrArg opcodeOf hnamed
    rw [opcodeOf_namedCommand, opcodeOf_namedCommand] at hcode
    obtain rfl := Option.some.inj hcode
    exact ⟨rfl, hclear⟩

/-- An accepted word meets mask and match of its own opcode's row. -/
theorem masked_eq_of_decode_ok {w : CmdWord} {i : Instr} (h : decode w = .ok i) :
    w &&& rowMask (reservedFrom (opField w)) = (opField w).setWidth 67 :=
  (and_rowMask_eq_iff (three_le_reservedFrom _) _ w).2 ⟨rfl, (decode_eq_ok_iff.1 h).1⟩

/-! ### Illegal words -/

theorem acceptWord_of_error {w : CmdWord} {r : DecodeReject} (h : decode w = .error r) (s : State) :
    acceptWord w s = .next { s with err := 6#3 } := by
  rw [acceptWord, h, State.raiseIllegal_eq]

/-- A format without reserved bits accepts every word of its opcode. -/
theorem decode_of_reservedFrom_eq_width {w : CmdWord} (h : reservedFrom (opField w) = 67) :
    decode w = .ok (namedCommand (opField w) w) := by
  rw [decode_eq_ok_iff, reservedClear, h, shiftRight_eq_zero_iff]
  exact ⟨fun j hj => BitVec.getLsbD_of_ge w j hj, rfl⟩

/-- Both reserved opcodes are the illegal command (`43_commands.md` R188). -/
theorem acceptWord_of_reservedOpcode {w : CmdWord} (h : opField w = 0b110#3 ∨ opField w = 0b111#3) (s : State) :
    acceptWord w s = .next { s with err := 6#3 } := by
  rcases h with h | h <;> rw [acceptWord, decode_of_reservedFrom_eq_width (by rw [h]; rfl), h] <;> rfl

/-- A word of a format with reserved bits from `n` on is rejected exactly when one of them is 1. -/
theorem exists_reservedBit_iff_rejected {w : CmdWord} {n : Nat} (hn : reservedFrom (opField w) = n) :
    (∃ j, n ≤ j ∧ w.getLsbD j = true) ↔ decode w = .error (.reservedBit (opField w)) := by
  rw [decode_eq_error_iff, reservedClear, hn, shiftRight_eq_zero_iff]
  simp

/-- Settles O3: each clause is the row of its opcode, and a word outside the first six rows is rejected or has a
reserved opcode. -/
theorem opcodeMapDecidesEveryWord : Obligations.OpcodeMapDecidesEveryWord := by
  intro w
  refine ⟨masked_eq_iff_decode 0b000#3 (by decide) (by decide),
    masked_eq_iff_decode 0b001#3 (by decide) (by decide),
    masked_eq_iff_decode 0b010#3 (by decide) (by decide),
    masked_eq_iff_decode 0b011#3 (by decide) (by decide),
    masked_eq_iff_decode 0b100#3 (by decide) (by decide),
    masked_eq_iff_decode 0b101#3 (by decide) (by decide),
    masked_eq_iff_decode 0b110#3 (by decide) (by decide),
    masked_eq_iff_decode 0b111#3 (by decide) (by decide), ?_⟩
  intro hnop henc hldf htx henctx hcfgw s
  cases hd : decode w with
  | error r => exact acceptWord_of_error hd s
  | ok i =>
    have hrow := masked_eq_of_decode_ok hd
    rcases opcode_cases (opField w) with h | h | h | h | h | h | h | h <;> rw [h] at hrow
    · exact absurd hrow hnop
    · exact absurd hrow henc
    · exact absurd hrow hldf
    · exact absurd hrow htx
    · exact absurd hrow henctx
    · exact absurd hrow hcfgw
    · exact acceptWord_of_reservedOpcode (.inl h) s
    · exact acceptWord_of_reservedOpcode (.inr h) s

/-- Settles O4: the decoder rejects exactly where a reserved bit of the opcode's format is 1, and format F has none. -/
theorem reservedBitMakesWordIllegal : Obligations.ReservedBitMakesWordIllegal := by
  intro w
  refine ⟨?_, ?_, ?_, ?_, fun r hr => acceptWord_of_error hr⟩
  · rintro (h | h) <;> exact exists_reservedBit_iff_rejected (by rw [h]; rfl)
  · rintro (h | h) <;> exact exists_reservedBit_iff_rejected (by rw [h]; rfl)
  · intro h
    exact exists_reservedBit_iff_rejected (by rw [h]; rfl)
  · intro h
    have hldf := decode_of_reservedFrom_eq_width (w := w) (by rw [h]; rfl)
    rw [h] at hldf
    exact ⟨_, _, _, _, _, _, _, _, hldf⟩

/-! ### The arithmetic of a command word -/

theorem toNat_append_eq_add {n m : Nat} (x : BitVec n) (y : BitVec m) :
    (x ++ y).toNat = x.toNat * 2 ^ m + y.toNat := by
  rw [BitVec.toNat_append, ← Nat.shiftLeft_add_eq_or_of_lt y.isLt, Nat.shiftLeft_eq]

/-- Format E as a sum (`30_encoding.md` R88). -/
theorem toNat_wordE (op : BitVec 3) (h : Byte) (c : Nibble) (t : Int) :
    (wordE op h c t).toNat =
      op.toNat + h.toNat * 2 ^ 3 + c.toNat * 2 ^ 11 + (t % 2048).toNat * 2 ^ 15 := by
  have hsum : (0#41 ++ BitVec.ofInt 11 t ++ c ++ h ++ op).toNat = (wordE op h c t).toNat := rfl
  rw [← hsum]
  simp only [toNat_append_eq_add, BitVec.toNat_ofInt, BitVec.toNat_ofNat]
  omega

/-- Format C as a sum (`30_encoding.md` R88). -/
theorem toNat_wordC (op : BitVec 3) (sp ce : Bool) :
    (wordC op sp ce).toNat = op.toNat + sp.toNat * 2 ^ 3 + ce.toNat * 2 ^ 4 := by
  have hsum : (0#62 ++ BitVec.ofBool ce ++ BitVec.ofBool sp ++ op).toNat = (wordC op sp ce).toNat := rfl
  rw [← hsum]
  simp only [toNat_append_eq_add, BitVec.toNat_ofBool, BitVec.toNat_ofNat]
  omega

/-- `n` edges without a command: as many samples, each with the strobe as given. -/
theorem replicate_plainEdge (n : Nat) (en : Bool) :
    (List.replicate n (plainEdge en)).length = n ∧
    ∀ i ∈ List.replicate n (plainEdge en), i.rst = false ∧ i.cmdValid = false ∧ i.txEn = en := by
  refine ⟨List.length_replicate, fun i hi => ?_⟩
  rw [List.eq_of_mem_replicate hi]
  exact ⟨rfl, rfl, rfl⟩

/-- Settles O6: each line is its edges by definition; the words are sums of their shifted fields. -/
theorem scriptLinesDriveTheirEdges : Obligations.ScriptLinesDriveTheirEdges := by
  refine ⟨⟨_, rfl⟩, fun _ => rfl, fun h c t en _ => ⟨_, rfl, toNat_wordE 0b001#3 h c t⟩,
    fun h c t en _ => ⟨_, rfl, toNat_wordE 0b100#3 h c t⟩, fun p en => ⟨_, rfl, ?_⟩, fun _ => rfl,
    fun sp ce en => ⟨_, rfl, toNat_wordC 0b101#3 sp ce⟩, fun _ _ => rfl,
    fun n => replicate_plainEdge n true, fun n => replicate_plainEdge n false⟩
  exact (toNat_append_eq_add p 0b010#3).trans (Nat.add_comm _ _)

/-! ### The nibbles of a message -/

/-- Settles O9: two polarities, two signs. -/
theorem signNibbleFollowsPolarity : Obligations.SignNibbleFollowsPolarity := by
  intro t10
  by_cases h : t10 < 0
  · simp [signNibble, isNegative, h]
  · simp [signNibble, isNegative, h]

/-- The integer temperature is the quotient truncated toward zero (`40_temperature_digits.md` R102). -/
theorem integerTemp_natAbs (t : Int) : integerTemp t.natAbs (isNegative t) = t.tdiv 10 := by
  obtain ⟨a, rfl | rfl⟩ := t.eq_nat_or_neg
  · have hpos : isNegative (a : Int) = false := decide_eq_false (by omega)
    rw [integerTemp, hpos, Int.natAbs_natCast]
    rfl
  · rw [Int.neg_tdiv, integerTemp, Int.natAbs_neg, Int.natAbs_natCast]
    have hquot : (a : Int).tdiv 10 = ((a / 10 : Nat) : Int) := rfl
    rw [hquot]
    split
    · rfl
    · next h =>
      have hzero : a = 0 := by rw [isNegative, decide_eq_true_iff] at h; omega
      rw [hzero]
      rfl

/-- The `P` entry read is that of the decimal digit (`40_temperature_digits.md` R102). -/
theorem readProm_decimalDigit (q : Params) (a : Nat) :
    readProm q (decimalDigit a) = q.p[a % 10]'(Nat.mod_lt _ (by decide)) := by
  have hdigit : a - a / 10 * 10 = a % 10 := by omega
  simp only [readProm, decimalDigit, Fin.getElem_fin, hdigit]

/-- A message, when there is one: its table entries and its bytes (`41_frame_codec.md` R131). -/
theorem frameGen_eq_ok {q : Params} {sp ce : Bool} {h : Byte} {c : Nibble} {t : Int} {F : Frame}
    (hF : frameGen q sp ce h c t = .ok F) :
    t.natAbs ≤ 999 ∧ ∃ ei v off, selectM q ce (t.tdiv 10) = .ok (ei, v) ∧ houseOffset q h = .ok off ∧
      F = messageOf sp h c t (v ^^^ q.p[t.natAbs % 10]'(Nat.mod_lt _ (by decide)) ^^^ off) := by
  rcases frameGen_cases q sp ce h c t with
    ⟨_, hE⟩ | ⟨ha, ⟨_, _, hE⟩ | ⟨⟨ei, v⟩, hsel, ⟨_, _, hE⟩ | ⟨off, hoff, hE⟩⟩⟩ <;> rw [hF] at hE <;> cases hE
  rw [integerTemp_natAbs] at hsel
  exact ⟨ha, ei, v, off, hsel, hoff, by rw [readProm_decimalDigit, r12Of]⟩

theorem toNat_r12High (r12 : Word12) : (r12High r12).toNat = r12.toNat / 256 := by
  have hr := r12.isLt
  simp only [r12High, BitVec.extractLsb'_toNat, Nat.shiftRight_eq_div_pow]
  omega

theorem toNat_r12Low (r12 : Word12) : (r12Low r12).toNat = r12.toNat % 256 := by
  simp [r12Low, BitVec.extractLsb'_toNat]

/-- The checksum byte is the nibble sum of bytes 0 to 5 with its halves exchanged (`41_frame_codec.md` R128, R129). -/
theorem checksum_nibbles (bs : List Byte) :
    (hi (byte6 (laneSum bs))).toNat = (bs.map fun b => (hi b).toNat + (lo b).toNat).sum % 256 % 16 ∧
    (lo (byte6 (laneSum bs))).toNat = (bs.map fun b => (hi b).toNat + (lo b).toNat).sum % 256 / 16 := by
  rw [byte6, hi_swapLanes, lo_swapLanes, toNat_lo, toNat_hi, laneSum, BitVec.toNat_ofNat]
  exact ⟨rfl, rfl⟩

/-- Settles O13: each byte is packed from its two fields, and the checksum byte is the sum of the nibbles before it. -/
theorem messageNibbles : Obligations.MessageNibbles := by
  intro q sp ce h c t10 F hF
  obtain ⟨ha, ei, v, off, hsel, hoff, hmsg⟩ := frameGen_eq_ok hF
  refine ⟨ei, v, off, hsel, hoff, ?_⟩
  rintro r12 s rfl rfl
  generalize v ^^^ q.p[t10.natAbs % 10]'(Nat.mod_lt _ (by decide)) ^^^ off = r12 at hmsg
  have hlow := toNat_bcdNibble (bcdLow_le t10.natAbs)
  have hmid := toNat_bcdNibble (bcdMid_le t10.natAbs)
  have hhigh := toNat_bcdNibble (bcdHigh_le ha)
  obtain ⟨hcheckHi, hcheckLo⟩ := checksum_nibbles [F[0], F[1], F[2], F[3], F[4], F[5]]
  have h0 : F[0] = 0xEC#8 := by rw [hmsg]; rfl
  have h1 : F[1] = 0x40#8 := by rw [hmsg]; rfl
  have h2 : F[2] = pack c (lo h) := by rw [hmsg]; rfl
  have h3 : F[3] = pack (hi h) (r12High r12) := by rw [hmsg]; rfl
  have h4 : F[4] = pack (bcdNibble (bcdLow t10.natAbs)) (bcdNibble (bcdMid t10.natAbs)) := by rw [hmsg]; rfl
  have h5 : F[5] = pack (bcdNibble (bcdHigh t10.natAbs)) (signNibble (isNegative t10) sp) := by rw [hmsg]; rfl
  have h6 : F[6] = byte6 (laneSum [F[0], F[1], F[2], F[3], F[4], F[5]]) := by rw [hmsg]; rfl
  have h7 : F[7] = r12Low r12 := by rw [hmsg]; rfl
  simp only [List.map_cons, List.map_nil, List.sum_cons, List.sum_nil] at hcheckHi hcheckLo
  refine ⟨by rw [h0]; rfl, by rw [h0]; rfl, by rw [h1]; rfl, by rw [h1]; rfl, by rw [h2, hi_pack],
    by rw [h2, lo_pack, toNat_lo], by rw [h3, hi_pack, toNat_hi], by rw [h3, lo_pack, toNat_r12High],
    by rw [h4, hi_pack, hlow]; rfl, by rw [h4, lo_pack, hmid]; rfl, by rw [h5, hi_pack, hhigh]; rfl,
    by rw [h5, lo_pack]; rfl, ?_, ?_, by rw [h7, toNat_r12Low]⟩
  · rw [h6, hcheckHi]; omega
  · rw [h6, hcheckLo]; omega

/-- Settles O16: the table is the definition. -/
theorem manchesterSymbols : Obligations.ManchesterSymbols :=
  ⟨rfl, rfl, fun _ => rfl⟩

/-! ### Texts -/

/-- A nibble's character is the entry of `0-9A-F` at its value. -/
theorem getElem?_hexDigits (n : Nibble) : "0123456789ABCDEF".toList[n.toNat]? = some (hexDigit n) := by
  revert n; decide

/-- The nibble of four bits, the first most significant. -/
theorem toNat_fourBits (a b c d : Bool) :
    (BitVec.ofBool a ++ BitVec.ofBool b ++ BitVec.ofBool c ++ BitVec.ofBool d).toNat =
      8 * a.toNat + 4 * b.toNat + 2 * c.toNat + d.toNat := by
  revert a b c d; decide

theorem bitsText_eq_none_iff (l : List Bool) : bitsText l = none ↔ l.length % 4 ≠ 0 := by
  induction l using bitsText.induct with
  | case1 => simp [bitsText]
  | case2 a b c d rest ih =>
    simp only [bitsText, Option.map_eq_none_iff, ih, List.length_cons]
    omega
  | case3 l hnil hfour =>
    have htext : bitsText l = none := by
      rw [bitsText]
      · exact hnil
      · exact hfour
    simp only [htext, true_iff]
    match l with
    | [] => exact absurd rfl hnil
    | [_] | [_, _] | [_, _, _] => simp
    | a :: b :: c :: d :: rest => exact absurd rfl (hfour a b c d rest)

/-- Digit `k` of a text is that of the bits `4k` to `4k + 3`. -/
theorem bitsText_digits {l : List Bool} {t : List Char} (h : bitsText l = some t) :
    4 * t.length = l.length ∧
    ∀ k, k < t.length → ∃ a b c d, l[4 * k]? = some a ∧ l[4 * k + 1]? = some b ∧ l[4 * k + 2]? = some c ∧
      l[4 * k + 3]? = some d ∧
      t[k]? = "0123456789ABCDEF".toList[8 * a.toNat + 4 * b.toNat + 2 * c.toNat + d.toNat]? := by
  induction l using bitsText.induct generalizing t with
  | case1 =>
    obtain rfl : [] = t := by simpa [bitsText] using h
    simp
  | case2 a b c d rest ih =>
    rw [bitsText, Option.map_eq_some_iff] at h
    obtain ⟨u, hu, rfl⟩ := h
    obtain ⟨hlen, hdigits⟩ := ih hu
    refine ⟨by simp only [List.length_cons]; omega, fun k hk => ?_⟩
    cases k with
    | zero =>
      refine ⟨a, b, c, d, rfl, rfl, rfl, rfl, ?_⟩
      rw [← toNat_fourBits, getElem?_hexDigits]
      rfl
    | succ k => exact hdigits k (Nat.lt_of_succ_lt_succ hk)
  | case3 l hnil hfour =>
    rw [bitsText] at h
    · cases h
    · exact hnil
    · exact hfour

/-- A text exists exactly when the length is a multiple of 4. -/
theorem exists_bitsText_iff (l : List Bool) : (∃ t, bitsText l = some t) ↔ l.length % 4 = 0 := by
  rw [← Option.ne_none_iff_exists', ne_eq, bitsText_eq_none_iff, not_not]

/-- Settles O22, by the recursion of `bitsText`, four bits at a time; a payload has 128 bits. -/
theorem bitsTextGroupsByFour : Obligations.BitsTextGroupsByFour := by
  refine ⟨bitsText_eq_none_iff, fun l t h => bitsText_digits h, fun F => ?_, fun q F => ?_⟩
  · obtain ⟨t, ht⟩ := (exists_bitsText_iff (payload F)).2 (by rw [length_payload])
    have hlen := (bitsText_digits ht).1
    rw [length_payload] at hlen
    exact ⟨t, ht, by omega⟩
  · rw [exists_bitsText_iff, bitstream, List.length_append, length_payload]
    omega

/-- Settles O23: every byte gives two digits, so digit `2i + j` is digit `j` of byte `i`. -/
theorem frameTextIsSixteenDigits : Obligations.FrameTextIsSixteenDigits := by
  intro F
  refine ⟨by simp [frameText, List.length_flatMap], fun i => ?_⟩
  have hbyte : F.toList[i.val]? = some F[i] := by
    rw [Vector.getElem?_toList, Vector.getElem?_eq_getElem i.isLt]
    rfl
  have hdigit (j : Nat) (hj : j < 2) := getElem?_flatMap_of_length_eq
    (f := fun b : Byte => [hexDigit (hi b), hexDigit (lo b)]) (fun _ => rfl) hj F.toList i.val
  rw [getElem?_hexDigits, getElem?_hexDigits]
  constructor
  · exact (hdigit 0 (by decide)).trans (by rw [hbyte]; rfl)
  · exact (hdigit 1 (by decide)).trans (by rw [hbyte]; rfl)

end Sys2Proof.Machine
end

section
/-! PROOFS. The temperature operand (`40_temperature_digits.md`): magnitude, integer temperature and decimal digit. -/

namespace Sys2Proof.Machine

theorem isNegative_iff (t : Int) : isNegative t = true ↔ t < 0 := decide_eq_true_iff

/-- R102: the digit is what the multiples of ten leave of the magnitude. -/
theorem val_decimalDigit (a : Nat) : (decimalDigit a).val = a % 10 := by
  change a - a / 10 * 10 = a % 10
  omega

/-- Settles O7: `integerTemp_natAbs` gives the truncated quotient, and the sign test chooses its two cases. -/
theorem temperatureSplitsTowardZero : Obligations.TemperatureSplitsTowardZero := by
  intro t
  have hsplit : integerTemp t.natAbs (isNegative t) =
      if t < 0 then -((t.natAbs / 10 : Nat) : Int) else ((t.natAbs / 10 : Nat) : Int) := by
    simp only [integerTemp, isNegative_iff]
  exact ⟨rfl, isNegative_iff t, hsplit, integerTemp_natAbs t, rfl, val_decimalDigit t.natAbs⟩

end Sys2Proof.Machine
end

section
/-! PROOFS. The selections of the frame codec (`41_frame_codec.md` R121, R122): the index of `M` and the house offset,
both read by membership in the tables. -/

namespace Sys2Proof.Machine

/-! ### Absent entries and the ends of the table -/

theorem readMrom_eq_none_iff {q : Params} (hq : q.wf) {e : Int} :
    readMrom q e = none ↔ ∀ v, (e, v) ∉ q.m := by
  simp only [Option.eq_none_iff_forall_ne_some, ne_eq, readMrom_eq_some_iff hq]

theorem readHrom_eq_none_iff {q : Params} (hq : q.wf) {h : Byte} :
    readHrom q h = none ↔ ∀ off, (h, off) ∉ q.hoff := by
  simp only [Option.eq_none_iff_forall_ne_some, ne_eq, readHrom_eq_some_iff hq]

/-- `M` holds one entry per key. -/
theorem eq_of_mem_of_key_eq {q : Params} (hq : q.wf) {x y : Int × Word12} (hx : x ∈ q.m) (hy : y ∈ q.m)
    (hkey : x.1 = y.1) : x = y := by
  have hfound : readMrom q y.1 = some x.2 := (readMrom_eq_some_iff hq).2 (by rw [← hkey]; exact hx)
  rw [(readMrom_eq_some_iff hq).2 hy, Option.some.injEq] at hfound
  exact Prod.ext hkey hfound.symm

/-- An entry is the one at `M_MIN` exactly when no key is below its own. -/
theorem firstMrom_eq_some_iff {q : Params} (hq : q.wf) {x : Int × Word12} :
    firstMrom q = some x ↔ x ∈ q.m ∧ ∀ y ∈ q.m, x.1 ≤ y.1 := by
  refine ⟨firstMrom_least hq, fun ⟨hx, hleast⟩ => ?_⟩
  have hfirst : firstMrom q = some (q.m.head (List.ne_nil_of_mem hx)) := List.head?_eq_some_head _
  obtain ⟨hmem, hbound⟩ := firstMrom_least hq hfirst
  exact hfirst.trans (congrArg some (eq_of_mem_of_key_eq hq hmem hx ((hbound x hx).antisymm (hleast _ hmem))))

/-- An entry is the one at `M_MAX` exactly when no key is above its own. -/
theorem lastMrom_eq_some_iff {q : Params} (hq : q.wf) {x : Int × Word12} :
    lastMrom q = some x ↔ x ∈ q.m ∧ ∀ y ∈ q.m, y.1 ≤ x.1 := by
  refine ⟨lastMrom_greatest hq, fun ⟨hx, hgreatest⟩ => ?_⟩
  have hlast : lastMrom q = some (q.m.getLast (List.ne_nil_of_mem hx)) := List.getLast?_eq_some_getLast _
  obtain ⟨hmem, hbound⟩ := lastMrom_greatest hq hlast
  exact hlast.trans (congrArg some (eq_of_mem_of_key_eq hq hmem hx ((hgreatest _ hmem).antisymm (hbound x hx))))

/-! ### The index of `M` -/

/-- All the ways to select an entry: it stands at the index itself, or clamping is on and the index is below the least
key or above the greatest (`41_frame_codec.md` R121). -/
theorem selectM_ok_cases {q : Params} (hq : q.wf) {ce : Bool} {e : Int} {x : Int × Word12}
    (hsel : selectM q ce e = .ok x) :
    x ∈ q.m ∧
      (x.1 = e ∨ ce = true ∧ ((∀ y ∈ q.m, x.1 ≤ y.1) ∧ e < x.1 ∨ (∀ y ∈ q.m, y.1 ≤ x.1) ∧ x.1 < e)) := by
  unfold selectM at hsel
  split at hsel
  · next v hv =>
    cases hsel
    exact ⟨(readMrom_eq_some_iff hq).1 hv, .inl rfl⟩
  · split at hsel
    · next hce =>
      split at hsel
      · next first last hfirst hlast =>
        obtain ⟨hfmem, hleast⟩ := firstMrom_least hq hfirst
        obtain ⟨hlmem, hgreatest⟩ := lastMrom_greatest hq hlast
        split at hsel
        · next hlow => cases hsel; exact ⟨hfmem, .inr ⟨hce, .inl ⟨hleast, hlow⟩⟩⟩
        · split at hsel
          · next hhigh => cases hsel; exact ⟨hlmem, .inr ⟨hce, .inr ⟨hgreatest, hhigh⟩⟩⟩
          · cases hsel
      · cases hsel
    · cases hsel

theorem selectM_of_present {q : Params} (hq : q.wf) {e : Int} {v : Word12} (hmem : (e, v) ∈ q.m) (ce : Bool) :
    selectM q ce e = .ok (e, v) := by
  simp only [selectM, (readMrom_eq_some_iff hq).2 hmem]

theorem selectM_of_below_least {q : Params} (hq : q.wf) {e : Int} {x : Int × Word12} (hx : x ∈ q.m)
    (hleast : ∀ y ∈ q.m, x.1 ≤ y.1) (hlow : e < x.1) : selectM q true e = .ok x := by
  have habsent : readMrom q e = none :=
    (readMrom_eq_none_iff hq).2 fun v hv => absurd (hleast _ hv) (Int.not_le.2 hlow)
  have hfirst := (firstMrom_eq_some_iff hq).2 ⟨hx, hleast⟩
  have hlast := List.getLast?_eq_some_getLast (List.ne_nil_of_mem hx)
  simp only [selectM, habsent, hfirst, lastMrom, hlast, hlow, if_true]

theorem selectM_of_above_greatest {q : Params} (hq : q.wf) {e : Int} {x : Int × Word12} (hx : x ∈ q.m)
    (hgreatest : ∀ y ∈ q.m, y.1 ≤ x.1) (hhigh : x.1 < e) : selectM q true e = .ok x := by
  have habsent : readMrom q e = none :=
    (readMrom_eq_none_iff hq).2 fun v hv => absurd (hgreatest _ hv) (Int.not_le.2 hhigh)
  have hlast := (lastMrom_eq_some_iff hq).2 ⟨hx, hgreatest⟩
  have hne := List.ne_nil_of_mem hx
  have hnotLow : ¬ e < (q.m.head hne).1 := by
    have := hgreatest _ (List.head_mem hne)
    omega
  simp only [selectM, habsent, firstMrom, List.head?_eq_some_head hne, hlast, hnotLow, hhigh, if_true, if_false]

/-- An absent index is an error where clamping is off, where the table is empty, and between two keys
(`41_frame_codec.md` R121). -/
theorem selectM_eq_error_of_absent {q : Params} (hq : q.wf) {ce : Bool} {e : Int} (habsent : ∀ v, (e, v) ∉ q.m)
    (hends : ce = false ∨ q.m = [] ∨ ((∃ x ∈ q.m, x.1 < e) ∧ ∃ x ∈ q.m, e < x.1)) :
    selectM q ce e = .error (.lookup e) := by
  cases hsel : selectM q ce e with
  | error E => rw [selectM_error hsel]
  | ok x =>
    obtain ⟨hx, rfl | ⟨hce, hend⟩⟩ := selectM_ok_cases hq hsel
    · exact absurd hx (habsent x.2)
    · rcases hends with hoff | hempty | ⟨⟨below, hbmem, hbelow⟩, above, hamem, habove⟩
      · rw [hoff] at hce; cases hce
      · rw [hempty] at hx; cases hx
      · rcases hend with ⟨hleast, hlow⟩ | ⟨hgreatest, hhigh⟩
        · have := hleast below hbmem; omega
        · have := hgreatest above hamem; omega

/-- Settles O10: an equation per way of selecting, an error everywhere else, and the digits of `messageNibbles`, in
which the index selected does not occur. -/
theorem mIndexSelection : Obligations.MIndexSelection := by
  intro q ce e hq
  refine ⟨fun v hv => selectM_of_present hq hv ce, fun k v hce hv hleast hlow => ?_,
    fun k v hce hv hgreatest hhigh => ?_, selectM_eq_error_of_absent hq, rfl, fun sp h c t10 F hF => ?_⟩
  · rw [hce]; exact selectM_of_below_least hq hv hleast hlow
  · rw [hce]; exact selectM_of_above_greatest hq hv hgreatest hhigh
  · obtain ⟨_, _, _, _, _, hnibbles⟩ := messageNibbles q sp ce h c t10 F hF
    obtain ⟨-, -, -, -, -, -, -, -, hlow, hmid, hhigh, hsign, -⟩ := hnibbles _ _ rfl rfl
    exact ⟨hlow, hmid, hhigh, hsign⟩

/-! ### The house offset -/

theorem houseOffset_of_present {q : Params} {h : Byte} {off : Word12} (hread : readHrom q h = some off) :
    houseOffset q h = .ok off := by
  simp only [houseOffset, hread]

theorem houseOffset_of_absent {q : Params} {h : Byte} (hread : readHrom q h = none) :
    houseOffset q h = if h = q.refHouse then .ok 0x000#12 else .error (.house h) := by
  simp only [houseOffset, hread]

/-- Settles O11: the table decides first; only for an absent entry is the reference house asked for. -/
theorem houseOffsetSelection : Obligations.HouseOffsetSelection := by
  intro q h hq
  refine ⟨fun off hoff => ?_, fun habsent href => ?_, fun habsent hother => ?_, rfl⟩
  · exact houseOffset_of_present ((readHrom_eq_some_iff hq).2 hoff)
  · rw [houseOffset_of_absent ((readHrom_eq_none_iff hq).2 habsent), if_pos href]
  · rw [houseOffset_of_absent ((readHrom_eq_none_iff hq).2 habsent), if_neg hother]

end Sys2Proof.Machine
end

section
/-! PROOFS. Nibble reflection (`42_bitstream_encoder.md` R151), and its place in the logical bits (R153): the slice of
one byte is cut from the sequence with the lemma on expansions of one length. -/

namespace Sys2Proof.Machine

/-! ### Reflection of one byte -/

@[simp] theorem hi_reflect (b : Byte) : hi (reflect b) = lo b := hi_swapLanes b

@[simp] theorem lo_reflect (b : Byte) : lo (reflect b) = hi b := lo_swapLanes b

theorem reflect_eq_pack (b : Byte) : reflect b = pack (lo b) (hi b) := rfl

@[simp] theorem reflect_reflect (b : Byte) : reflect (reflect b) = b := by
  rw [reflect_eq_pack, lo_reflect, hi_reflect, pack_hi_lo]

theorem reflect_eq_self_of_hi_eq_lo {b : Byte} (h : hi b = lo b) : reflect b = b := by
  calc reflect b = pack (lo b) (hi b) := reflect_eq_pack b
    _ = pack (hi b) (lo b) := by rw [h]
    _ = b := pack_hi_lo b

/-- The formula of `42_bitstream_encoder.md` R151: above bit 3 the mask keeps every bit, and the other shift is 0. -/
theorem reflect_eq_shift_or_shift (b : Byte) : reflect b = ((b &&& 0x0F#8) <<< 4) ||| (b >>> 4) := by
  apply BitVec.eq_of_getLsbD_eq
  intro j hj
  rw [getLsbD_reflect b hj, logicalBit, BitVec.getLsbD_or, BitVec.getLsbD_shiftLeft, BitVec.getLsbD_ushiftRight,
    BitVec.getLsbD_and]
  split
  · next hlow => simp [hlow, Nat.add_comm]
  · next hhigh =>
    have hmask : ∀ i < 4, (0x0F#8).getLsbD i = true := by decide
    have hout : b.getLsbD (4 + j) = false := BitVec.getLsbD_of_ge b (4 + j) (by omega)
    simp [hj, hhigh, hmask (j - 4) (by omega), hout]

/-! ### The logical bits of one byte -/

/-- Where every element expands to `n` entries, the `n` entries from `n * i` on are the expansion of element `i`. -/
theorem take_drop_flatMap_of_length_eq {α β : Type} {f : α → List β} {n : Nat} (hf : ∀ a, (f a).length = n)
    {l : List α} {i : Nat} (hlt : i < l.length) : ((l.flatMap f).drop (n * i)).take n = f l[i] := by
  apply List.ext_getElem?
  intro j
  by_cases hj : j < n
  · rw [List.getElem?_take_of_lt hj, List.getElem?_drop, getElem?_flatMap_of_length_eq hf hj,
      List.getElem?_eq_getElem hlt, Option.bind_some]
  · have hout : n ≤ j := Nat.le_of_not_lt hj
    rw [List.getElem?_take_eq_none hout, List.getElem?_eq_none (by rw [hf]; exact hout)]

theorem take_drop_logical (F : Frame) (i : Fin 8) :
    ((logical F).drop (8 * i.val)).take 8 = expand (reflect F[i]) :=
  take_drop_flatMap_of_length_eq (fun b => length_expand (reflect b)) (by rw [Vector.length_toList]; exact i.isLt)

/-- Settles O17: the checksum byte is an exchange of halves, so reflecting it is reflecting twice. -/
theorem reflectExchangesHalves : Obligations.ReflectExchangesHalves :=
  ⟨fun b => ⟨reflect_eq_shift_or_shift b, hi_reflect b, lo_reflect b, reflect_reflect b, reflect_eq_self_of_hi_eq_lo,
    reflect_reflect b⟩, take_drop_logical⟩

end Sys2Proof.Machine
end

section
/-! PROOFS. The commands, the serializer step and the arms of an edge (`43_commands.md` R180 to R192): the answer of
`FRAMEGEN` check by check, what each instruction makes of it, and one equation per arm. -/

namespace Sys2Proof.Machine

/-! ### The checks of `FRAMEGEN`, in order (`41_frame_codec.md` R131) -/

theorem frameGen_of_outOfRange {t : Int} (ht : 999 < t.natAbs) (q : Params) (sp ce : Bool) (h : Byte) (c : Nibble) :
    frameGen q sp ce h c t = .error (.range t) := by
  rw [frameGen, magnitude, outOfRange, if_pos (decide_eq_true ht)]

theorem not_outOfRange {t : Int} (ht : t.natAbs ≤ 999) : outOfRange (magnitude t) = false :=
  decide_eq_false (Nat.not_lt.2 ht)

theorem frameGen_of_selectM_error {q : Params} {ce : Bool} {t : Int} {E : BlockError} (ht : t.natAbs ≤ 999)
    (hsel : selectM q ce (t.tdiv 10) = .error E) (sp : Bool) (h : Byte) (c : Nibble) :
    frameGen q sp ce h c t = .error (.lookup (t.tdiv 10)) := by
  rw [frameGen, not_outOfRange ht, if_neg Bool.false_ne_true, magnitude, integerTemp_natAbs, hsel, selectM_error hsel]

theorem frameGen_of_houseOffset_error {q : Params} {ce : Bool} {t : Int} {sel : Int × Word12} {h : Byte}
    {E : BlockError} (ht : t.natAbs ≤ 999) (hsel : selectM q ce (t.tdiv 10) = .ok sel)
    (hoff : houseOffset q h = .error E) (sp : Bool) (c : Nibble) :
    frameGen q sp ce h c t = .error (.house h) := by
  rw [frameGen, not_outOfRange ht, if_neg Bool.false_ne_true, magnitude, integerTemp_natAbs, hsel, hoff,
    houseOffset_error hoff]

theorem exists_frameGen_eq_ok {q : Params} {ce : Bool} {t : Int} {sel : Int × Word12} {h : Byte} {off : Word12}
    (ht : t.natAbs ≤ 999) (hsel : selectM q ce (t.tdiv 10) = .ok sel) (hoff : houseOffset q h = .ok off)
    (sp : Bool) (c : Nibble) : ∃ F, frameGen q sp ce h c t = .ok F := by
  rw [frameGen, not_outOfRange ht, if_neg Bool.false_ne_true, magnitude, integerTemp_natAbs, hsel, hoff]
  exact ⟨_, rfl⟩

/-! ### What `ENC` and `ENCTX` make of the answer (`43_commands.md` R183, R186) -/

theorem exec_enc_of_ok {s : State} {h : Byte} {c : Nibble} {t : Int} {F : Frame}
    (hF : frameGen s.params s.signPol s.clampEn h c t = .ok F) :
    exec (.enc h c t) s = .next { s with frame := F, fvalid := true, err := 0#3 } := by
  rw [exec, execEnc, State.reading, hF]
  rfl

theorem exec_enc_of_error {s : State} {h : Byte} {c : Nibble} {t : Int} {E : BlockError}
    (hE : frameGen s.params s.signPol s.clampEn h c t = .error E) :
    exec (.enc h c t) s = .next { s with frame := zeroFrame, fvalid := false, err := E.code } := by
  obtain ⟨hraise, -⟩ := raise_of_frameGen_error hE s
  rw [exec, execEnc, State.reading, hE, State.storeReading, hraise]

theorem exec_enctx_of_ok {s : State} {h : Byte} {c : Nibble} {t : Int} {F : Frame}
    (hF : frameGen s.params s.signPol s.clampEn h c t = .ok F) :
    exec (.enctx h c t) s =
      .next { s with frame := F, fvalid := true, done := false, busy := true, pos := 0#8, err := 0#3 } := by
  rw [exec, execEnctx, State.reading, hF]
  rfl

theorem exec_enctx_of_error {s : State} {h : Byte} {c : Nibble} {t : Int} {E : BlockError}
    (hE : frameGen s.params s.signPol s.clampEn h c t = .error E) :
    exec (.enctx h c t) s =
      .next { s with frame := zeroFrame, fvalid := false, done := false, err := E.code } := by
  obtain ⟨hraise, -⟩ := raise_of_frameGen_error hE s.clearDone
  rw [exec, execEnctx, State.reading, hE, State.sendReading, hraise]
  rfl

/-- Settles O27: each case is an answer of `FRAMEGEN`, stored as a message or raised as its error. -/
theorem encStoresMessageOrError : Obligations.EncStoresMessageOrError := by
  intro s h c t10
  refine ⟨fun hrange => ?_, fun E ht hsel => ?_, fun sel E ht hsel hoff => ?_, fun sel off ht hsel hoff => ?_⟩
  · exact exec_enc_of_error (frameGen_of_outOfRange hrange ..)
  · exact exec_enc_of_error (frameGen_of_selectM_error ht hsel ..)
  · exact exec_enc_of_error (frameGen_of_houseOffset_error ht hsel hoff ..)
  · obtain ⟨F, hF⟩ := exists_frameGen_eq_ok ht hsel hoff s.signPol c
    exact ⟨F, hF, exec_enc_of_ok hF⟩

/-- Settles O30: the answers of `FRAMEGEN` as in O27, here sent or raised with `DONE` cleared. -/
theorem enctxStartsMessageOrReportsError : Obligations.EnctxStartsMessageOrReportsError := by
  intro s h c t10
  refine ⟨fun hrange => ?_, fun E ht hsel => ?_, fun sel E ht hsel hoff => ?_, fun sel off ht hsel hoff => ?_⟩
  · exact exec_enctx_of_error (frameGen_of_outOfRange hrange ..)
  · exact exec_enctx_of_error (frameGen_of_selectM_error ht hsel ..)
  · exact exec_enctx_of_error (frameGen_of_houseOffset_error ht hsel hoff ..)
  · obtain ⟨F, hF⟩ := exists_frameGen_eq_ok ht hsel hoff s.signPol c
    exact ⟨F, hF, exec_enctx_of_ok hF⟩

/-! ### The serializer step (`43_commands.md` R190) -/

theorem exec_tick_of_last {s : State} (hpos : total s.params - 1 ≤ s.pos.toNat) :
    exec .tick s = .next { s with busy := false, done := true, pos := 0#8,
                                  trace := s.trace ++ [bsBit s.params s.frame s.pos.toNat] } := by
  rcases execTick_cases s with ⟨-, htick⟩ | ⟨hbefore, -⟩
  · exact htick
  · omega

theorem exec_tick_of_not_last {s : State} (hpos : s.pos.toNat < total s.params - 1) :
    exec .tick s = .next { s with pos := s.pos + 1#8,
                                  trace := s.trace ++ [bsBit s.params s.frame s.pos.toNat] } := by
  rcases execTick_cases s with ⟨hlast, -⟩ | ⟨-, htick⟩
  · omega
  · exact htick

/-- Settles O33: inside the stream the bit emitted is the element of the stream at `POS`; `TOTAL` is at most 255, so
the counter does not wrap before the last bit. -/
theorem tickEmitsBitAndAdvances : Obligations.TickEmitsBitAndAdvances := by
  intro s hwf hpos
  have htotal := total_le hwf
  refine ⟨_, getElem?_bitstream s.params s.frame hpos, fun hlast => ?_, fun hother => ⟨?_, by omega⟩⟩
  · exact exec_tick_of_last (by omega)
  · have hnext : BitVec.ofNat 8 (s.pos.toNat + 1) = s.pos + 1#8 := by
      rw [BitVec.ofNat_add, BitVec.ofNat_toNat, BitVec.setWidth_eq]
    rw [hnext]
    exact exec_tick_of_not_last (by omega)

/-! ### The other commands -/

/-- Settles O26: the meaning of `NOP` is the state itself. -/
theorem nopChangesNothing : Obligations.NopChangesNothing := fun _ => rfl

/-- Settles O28: `State.loadFrame` with the eight operands. -/
theorem ldfLoadsEightBytes : Obligations.LdfLoadsEightBytes := fun _ _ _ _ _ _ _ _ _ => rfl

/-- Settles O29, by the two cases of `execTx_cases`. -/
theorem txStartsOrReportsNoFrame : Obligations.TxStartsOrReportsNoFrame := by
  intro s
  rcases execTx_cases s with ⟨hvalid, htx⟩ | ⟨hinvalid, htx⟩
  · exact ⟨fun _ => htx, fun hinvalid => absurd (hinvalid.symm.trans hvalid) Bool.false_ne_true⟩
  · exact ⟨fun hvalid => absurd (hinvalid.symm.trans hvalid) Bool.false_ne_true, fun _ => htx⟩

/-- Settles O31: the meaning of `CFGW` is this update. -/
theorem cfgwWritesConfiguration : Obligations.CfgwWritesConfiguration := fun _ _ _ => rfl

/-- Settles O32: all three ways end in `State.raiseIllegal`. -/
theorem illegalCommandWritesOnlyErr : Obligations.IllegalCommandWritesOnlyErr := fun s =>
  ⟨fun p => congrArg Host.Outcome.next (State.raiseIllegal_eq (wordReserved 0b110#3 p) s),
    fun p => congrArg Host.Outcome.next (State.raiseIllegal_eq (wordReserved 0b111#3 p) s),
    fun _ _ hreject => acceptWord_of_error hreject s⟩

/-! ### The arms of an edge (`43_commands.md` R180, R181) -/

theorem acceptWord_of_ok {w : CmdWord} {k : Instr} (h : decode w = .ok k) (s : State) : acceptWord w s = exec k s := by
  rw [acceptWord, h]

/-- In a transmission the arm is chosen by `rst` and `tx_en` alone (`43_commands.md` R192). -/
theorem edgeArm_of_busy {s : State} (hbusy : s.busy = true) (i : PortIn) :
    edgeArm i s = if i.rst then .reset else if i.txEn then .tick else .hold := by
  rw [edgeArm, if_pos hbusy]

/-- Without a transmission the strobe has no effect (`43_commands.md` R181). -/
theorem edgeArm_of_idle {s : State} (hidle : s.busy = false) (i : PortIn) :
    edgeArm i s = if i.rst then .reset else if i.cmdValid then .command i.cmd else .idle := by
  rw [edgeArm, hidle, if_neg Bool.false_ne_true]

section
variable {i : PortIn} {s : State} (hrst : i.rst = false)
include hrst

theorem stepEdge_of_tick (hbusy : s.busy = true) (hen : i.txEn = true) : stepEdge i s = exec .tick s := by
  rw [stepEdge, edgeArm_of_busy hbusy, hrst, hen]
  rfl

theorem stepEdge_of_hold (hbusy : s.busy = true) (hen : i.txEn = false) : stepEdge i s = .next s := by
  rw [stepEdge, edgeArm_of_busy hbusy, hrst, hen]
  rfl

theorem stepEdge_of_command (hidle : s.busy = false) (hvalid : i.cmdValid = true) :
    stepEdge i s = acceptWord i.cmd s := by
  rw [stepEdge, edgeArm_of_idle hidle, hrst, hvalid]
  rfl

theorem stepEdge_of_no_command (hidle : s.busy = false) (hvalid : i.cmdValid = false) : stepEdge i s = .next s := by
  rw [stepEdge, edgeArm_of_idle hidle, hrst, hvalid]
  rfl

end

/-- Settles O38: `step` is the edge of the next sample on the state with the sample taken, and taking it leaves `BUSY`;
then one equation per arm. -/
theorem stepTakesOneArm : Obligations.StepTakesOneArm := by
  intro s
  rw [← s.popInput_busy]
  refine ⟨fun hrst => ?_, fun hrst hbusy hen => ?_, fun hrst hbusy hen => ?_,
    fun k hrst hidle hvalid hdecode => ?_, fun r hrst hidle hvalid hreject => ?_, fun hrst hidle hvalid => ?_⟩
  · exact stepEdge_of_rst hrst s.popInput
  · exact stepEdge_of_tick hrst hbusy hen
  · exact stepEdge_of_hold hrst hbusy hen
  · exact (stepEdge_of_command hrst hidle hvalid).trans (acceptWord_of_ok hdecode s.popInput)
  · exact (stepEdge_of_command hrst hidle hvalid).trans (acceptWord_of_error hreject s.popInput)
  · exact stepEdge_of_no_command hrst hidle hvalid

/-- Settles O44: while `BUSY = 1` the choice of the arm does not look at the command port; the tick at the last bit
clears `BUSY`, so the next edge takes the command arm. -/
theorem busyIgnoresCommandPort : Obligations.BusyIgnoresCommandPort := by
  refine ⟨fun s i j hbusy hrst hen => ⟨?_, ?_⟩, fun s i j t k hbusy hlast hrst hen hstep hrst' hvalid hdecode => ?_⟩
  · have harm : edgeArm i s = edgeArm j s := by
      rw [edgeArm_of_busy hbusy, edgeArm_of_busy hbusy, hrst, hen]
    rw [stepEdge, harm, stepEdge]
  · change (!s.busy) = false
    rw [hbusy, Bool.not_true]
  · rw [stepEdge_of_tick hrst hbusy hen, exec_tick_of_last hlast.ge] at hstep
    cases hstep
    exact ⟨rfl, (stepEdge_of_command hrst' rfl hvalid).trans (acceptWord_of_ok hdecode _)⟩

end Sys2Proof.Machine
end

section
/-! PROOFS. Reset in a transmission (`70_reset_and_hazards.md` R250, R252): what it leaves is a fixed point of every
edge without a command, and without reset only the tick at the last bit ends a transmission. -/

namespace Sys2Proof.Machine

/-- Once reset, the block stays as it is until a command comes: the edge is a second reset or idle. -/
theorem stepEdge_resetBlock_of_no_command {i : PortIn} (hcmd : i.cmdValid = false) (s : State) :
    stepEdge i s.resetBlock = .next s.resetBlock := by
  cases hrst : i.rst with
  | true => exact stepEdge_of_rst hrst s.resetBlock
  | false => exact stepEdge_of_no_command hrst s.resetBlock_busy hcmd

theorem run_resetBlock_of_no_command {ins rest : List PortIn} (hcmd : ∀ i ∈ ins, i.cmdValid = false) {s : State}
    (hins : s.inputs = ins ++ rest) : run ins.length s.resetBlock = .next { s.resetBlock with inputs := rest } := by
  induction ins generalizing s with
  | nil =>
    obtain rfl : s.inputs = rest := hins
    exact run_zero s.resetBlock
  | cons i ins ih =>
    obtain ⟨hi, hrest⟩ := List.forall_mem_cons.1 hcmd
    have hstep : step s.resetBlock = .next { s with inputs := ins ++ rest }.resetBlock :=
      (step_cons (s := s.resetBlock) hins).trans (stepEdge_resetBlock_of_no_command hi { s with inputs := ins ++ rest })
    exact (run_succ hstep).trans (ih hrest rfl)

/-- Without reset, an edge that ends a transmission is the tick at the last bit (`43_commands.md` R190, R192). -/
theorem exec_tick_at_last_of_ends {s t : State} {e : PortIn} (hbusy : s.busy = true) (hrst : e.rst = false)
    (hstep : stepEdge e s = .next t) (hend : t.busy = false) :
    total s.params - 1 ≤ s.pos.toNat ∧ exec .tick s = .next t := by
  cases hen : e.txEn with
  | false =>
    rw [stepEdge_of_hold hrst hbusy hen] at hstep
    cases hstep
    exact absurd hbusy (Bool.eq_false_iff.1 hend)
  | true =>
    rw [stepEdge_of_tick hrst hbusy hen] at hstep
    refine ⟨Nat.le_of_not_lt fun hbefore => ?_, hstep⟩
    rw [exec_tick_of_not_last hbefore] at hstep
    cases hstep
    exact absurd hbusy (Bool.eq_false_iff.1 hend)

/-- Settles O43: the first edge resets, and the rest leave the reset block; the bit of the last tick is the element of
the stream at `POS`. -/
theorem resetTruncatesTransmission : Obligations.ResetTruncatesTransmission := by
  refine ⟨fun s e ins rest _ hins hrst hcmd => ?_, fun s t e hbusy hpos hrst hstep hend => ?_⟩
  · have hreset : step s = .next { s with inputs := ins ++ rest }.resetBlock :=
      (step_cons hins).trans (stepEdge_of_rst hrst { s with inputs := ins ++ rest })
    rw [Nat.add_comm, run_succ hreset]
    exact run_resetBlock_of_no_command hcmd rfl
  · obtain ⟨hlast, htick⟩ := exec_tick_at_last_of_ends hbusy hrst hstep hend
    rw [exec_tick_of_last hlast] at htick
    cases htick
    exact ⟨by omega, rfl, _, getElem?_bitstream s.params s.frame hpos, rfl⟩

end Sys2Proof.Machine
end

section
/-! PROOFS. The two round trips of the encoding (`30_encoding.md` R71, R72, R75): word builders and operand fields are
both read as arithmetic on the word's number, and the decoder by `decode_eq_ok_iff`. -/

namespace Sys2Proof.Machine

open Sys2Proof.Laws.WordOpcode (opField_append)

/-! ### Operand fields as digits of the word's number (`30_encoding.md` R70, R76, R77) -/

theorem toNat_extractLsb'_eq_div_mod (w : CmdWord) (lo len : Nat) :
    (w.extractLsb' lo len).toNat = w.toNat / 2 ^ lo % 2 ^ len := by
  rw [BitVec.extractLsb'_toNat, Nat.shiftRight_eq_div_pow]

theorem getLsbD_eq_div_mod (w : CmdWord) (j : Nat) : (w.getLsbD j).toNat = w.toNat / 2 ^ j % 2 := by
  rw [BitVec.getLsbD, Nat.toNat_testBit]

theorem bool_eq_of_toNat_eq {a b : Bool} (h : a.toNat = b.toNat) : a = b := by
  revert a b; decide

/-- The reserved bits from `n` on are 0 exactly when the number is below `2 ^ n`. -/
theorem shiftRight_eq_zero_iff_lt {w : CmdWord} {n : Nat} : w >>> n = 0#67 ↔ w.toNat < 2 ^ n := by
  rw [BitVec.toNat_eq, BitVec.toNat_ushiftRight, Nat.shiftRight_eq_div_pow, BitVec.toNat_ofNat, Nat.zero_mod,
    Nat.div_eq_zero_iff_lt (Nat.two_pow_pos n)]

theorem toNat_opField (w : CmdWord) : (opField w).toNat = w.toNat % 8 := by
  rw [opField, toNat_extractLsb'_eq_div_mod, Nat.pow_zero, Nat.div_one]
  rfl

theorem toNat_wordF (op : BitVec 3) (f0 f1 f2 f3 f4 f5 f6 f7 : Byte) :
    (wordF op f0 f1 f2 f3 f4 f5 f6 f7).toNat =
      op.toNat + f7.toNat * 2 ^ 3 + f6.toNat * 2 ^ 11 + f5.toNat * 2 ^ 19 + f4.toNat * 2 ^ 27 + f3.toNat * 2 ^ 35 +
        f2.toNat * 2 ^ 43 + f1.toNat * 2 ^ 51 + f0.toNat * 2 ^ 59 := by
  have hsum : (f0 ++ f1 ++ f2 ++ f3 ++ f4 ++ f5 ++ f6 ++ f7 ++ op).toNat =
    (wordF op f0 f1 f2 f3 f4 f5 f6 f7).toNat := rfl
  rw [← hsum]
  simp only [toNat_append_eq_add]
  omega

theorem toNat_wordReserved (op : BitVec 3) (p : Payload) :
    (wordReserved op p).toNat = op.toNat + p.toNat * 2 ^ 3 :=
  (toNat_append_eq_add p op).trans (Nat.add_comm _ _)

/-! ### The fields of a built word -/

theorem houseField_wordE (op : BitVec 3) (h : Byte) (c : Nibble) (t : Int) : houseField (wordE op h c t) = h := by
  have hsum := toNat_wordE op h c t
  apply BitVec.eq_of_toNat_eq
  rw [houseField, toNat_extractLsb'_eq_div_mod]
  omega

theorem channelField_wordE (op : BitVec 3) (h : Byte) (c : Nibble) (t : Int) : channelField (wordE op h c t) = c := by
  have hsum := toNat_wordE op h c t
  apply BitVec.eq_of_toNat_eq
  rw [channelField, toNat_extractLsb'_eq_div_mod]
  omega

theorem temp10Field_wordE (op : BitVec 3) (h : Byte) (c : Nibble) (t : Int) :
    temp10Field (wordE op h c t) = BitVec.ofInt 11 t := by
  have hsum := toNat_wordE op h c t
  apply BitVec.eq_of_toNat_eq
  rw [temp10Field, toNat_extractLsb'_eq_div_mod, BitVec.toNat_ofInt]
  omega

/-- An operand that fits its field is read back with its sign (`30_encoding.md` R76). -/
theorem t10Operand_wordE {t : Int} (ht : t10Fits t) (op : BitVec 3) (h : Byte) (c : Nibble) :
    t10Operand (wordE op h c t) = t := by
  rw [t10Operand, temp10Field_wordE, BitVec.toInt_ofInt]
  obtain ⟨hlow, hhigh⟩ := ht
  exact Int.bmod_eq_of_le (by omega) (by omega)

theorem frameField_wordF (op : BitVec 3) (f0 f1 f2 f3 f4 f5 f6 f7 : Byte) (i : Fin 8) :
    frameField (wordF op f0 f1 f2 f3 f4 f5 f6 f7) i.val = #v[f0, f1, f2, f3, f4, f5, f6, f7][i] := by
  have hsum := toNat_wordF op f0 f1 f2 f3 f4 f5 f6 f7
  apply BitVec.eq_of_toNat_eq
  rw [frameField, toNat_extractLsb'_eq_div_mod]
  fin_cases i <;> simp <;> omega

theorem flags_wordC (op : BitVec 3) (sp ce : Bool) :
    signPolField (wordC op sp ce) = sp ∧ clampEnField (wordC op sp ce) = ce := by
  have hsum := toNat_wordC op sp ce
  have hop := op.isLt
  have hsp := sp.toNat_lt
  have hce := ce.toNat_lt
  constructor <;> apply bool_eq_of_toNat_eq
  · rw [signPolField, getLsbD_eq_div_mod]
    omega
  · rw [clampEnField, getLsbD_eq_div_mod]
    omega

theorem payloadField_wordReserved (op : BitVec 3) (p : Payload) : payloadField (wordReserved op p) = p := by
  have hsum := toNat_wordReserved op p
  have hop := op.isLt
  apply BitVec.eq_of_toNat_eq
  rw [payloadField, toNat_extractLsb'_eq_div_mod]
  omega

/-! ### The decoder on a built word -/

theorem decode_eq_ok_of_opField {w : CmdWord} {op : BitVec 3} (hop : opField w = op)
    (hclear : w.toNat < 2 ^ reservedFrom op) : decode w = .ok (namedCommand op w) := by
  rw [decode_eq_ok_iff, reservedClear, hop, shiftRight_eq_zero_iff_lt]
  exact ⟨hclear, rfl⟩

/-- The word of format E is read back under both of its opcodes. -/
theorem decode_wordE {op : BitVec 3} (hop : reservedFrom op = 26) (h : Byte) (c : Nibble) (t : Int) :
    decode (wordE op h c t) = .ok (namedCommand op (wordE op h c t)) := by
  refine decode_eq_ok_of_opField (opField_append _ op) ?_
  rw [hop, toNat_wordE]
  omega

theorem decode_wordF (f0 f1 f2 f3 f4 f5 f6 f7 : Byte) :
    decode (wordF 0b010#3 f0 f1 f2 f3 f4 f5 f6 f7) = .ok (.ldf f0 f1 f2 f3 f4 f5 f6 f7) := by
  have hfield := frameField_wordF 0b010#3 f0 f1 f2 f3 f4 f5 f6 f7
  have hop : opField (wordF 0b010#3 f0 f1 f2 f3 f4 f5 f6 f7) = 0b010#3 := opField_append _ _
  refine (decode_eq_ok_of_opField hop (BitVec.isLt _)).trans ?_
  simp only [namedCommand, Except.ok.injEq, Instr.ldf.injEq]
  exact ⟨hfield 0, hfield 1, hfield 2, hfield 3, hfield 4, hfield 5, hfield 6, hfield 7⟩

theorem decode_wordC (sp ce : Bool) : decode (wordC 0b101#3 sp ce) = .ok (.cfgw sp ce) := by
  obtain ⟨hsp, hce⟩ := flags_wordC 0b101#3 sp ce
  have hclear : (wordC 0b101#3 sp ce).toNat < 2 ^ 5 := by
    have hsum := toNat_wordC 0b101#3 sp ce
    have := sp.toNat_lt
    have := ce.toNat_lt
    omega
  have hop : opField (wordC 0b101#3 sp ce) = 0b101#3 := opField_append _ _
  rw [decode_eq_ok_of_opField hop hclear, namedCommand, hsp, hce]

theorem decode_wordReserved {op : BitVec 3} (hop : reservedFrom op = 67) (p : Payload) :
    decode (wordReserved op p) = .ok (namedCommand op (wordReserved op p)) :=
  decode_eq_ok_of_opField (opField_append _ op) (by rw [hop]; exact BitVec.isLt _)

/-- Settles O1, format by format: the opcode is read back, the reserved bits are 0, and each field is its operand. -/
theorem decodeInvertsEncode : Obligations.DecodeInvertsEncode := by
  intro i hwf hcommand
  cases i with
  | nop | tx => exact ⟨_, rfl, by decide⟩
  | enc h c t | enctx h c t =>
    refine ⟨_, rfl, (decode_wordE rfl h c t).trans ?_⟩
    rw [namedCommand, houseField_wordE, channelField_wordE, t10Operand_wordE (of_decide_eq_true hwf)]
  | ldf f0 f1 f2 f3 f4 f5 f6 f7 => exact ⟨_, rfl, decode_wordF f0 f1 f2 f3 f4 f5 f6 f7⟩
  | cfgw sp ce => exact ⟨_, rfl, decode_wordC sp ce⟩
  | reserved110 p | reserved111 p =>
    refine ⟨_, rfl, (decode_wordReserved rfl p).trans ?_⟩
    rw [namedCommand, payloadField_wordReserved]
  | tick => cases hcommand

/-! ### The word of a decoded instruction -/

/-! A word is its fields in their places, as long as the bits without a field are 0. -/

theorem wordN_of_fields {w : CmdWord} (hclear : w.toNat < 2 ^ 3) : wordN (opField w) = w := by
  apply BitVec.eq_of_toNat_eq
  have hsum : (wordN (opField w)).toNat = (0#64 ++ opField w).toNat := rfl
  rw [hsum, toNat_append_eq_add, toNat_opField, BitVec.toNat_ofNat]
  omega

theorem wordE_of_fields {w : CmdWord} (hclear : w.toNat < 2 ^ 26) :
    wordE (opField w) (houseField w) (channelField w) (t10Operand w) = w := by
  have htemp : (t10Operand w % 2048).toNat = (temp10Field w).toNat :=
    (BitVec.toNat_ofInt (n := 11) _).symm.trans (congrArg BitVec.toNat (temp10Field w).ofInt_toInt)
  apply BitVec.eq_of_toNat_eq
  rw [toNat_wordE, htemp, toNat_opField, houseField, channelField, temp10Field, toNat_extractLsb'_eq_div_mod,
    toNat_extractLsb'_eq_div_mod, toNat_extractLsb'_eq_div_mod]
  omega

theorem wordF_of_fields (w : CmdWord) :
    wordF (opField w) (frameField w 0) (frameField w 1) (frameField w 2) (frameField w 3) (frameField w 4)
      (frameField w 5) (frameField w 6) (frameField w 7) = w := by
  have hw := w.isLt
  apply BitVec.eq_of_toNat_eq
  rw [toNat_wordF, toNat_opField]
  simp only [frameField, toNat_extractLsb'_eq_div_mod]
  omega

theorem wordC_of_fields {w : CmdWord} (hclear : w.toNat < 2 ^ 5) :
    wordC (opField w) (signPolField w) (clampEnField w) = w := by
  apply BitVec.eq_of_toNat_eq
  rw [toNat_wordC, toNat_opField, signPolField, clampEnField, getLsbD_eq_div_mod, getLsbD_eq_div_mod]
  omega

theorem wordReserved_of_fields (w : CmdWord) : wordReserved (opField w) (payloadField w) = w := by
  have hw := w.isLt
  apply BitVec.eq_of_toNat_eq
  rw [toNat_wordReserved, toNat_opField, payloadField, toNat_extractLsb'_eq_div_mod]
  omega

/-- Any value of the 11-bit field is an operand in range (`30_encoding.md` R76). -/
theorem t10Fits_t10Operand (w : CmdWord) : t10Fits (t10Operand w) := by
  have hlow := BitVec.le_toInt (temp10Field w)
  have hhigh := BitVec.toInt_lt (x := temp10Field w)
  rw [t10Fits, t10Operand]
  omega

/-- Settles O2: an accepted word has clear reserved bits, so its format's builder gives it back from its fields. -/
theorem encodeInvertsDecode : Obligations.EncodeInvertsDecode := by
  intro w i hdecode
  obtain ⟨hclear, rfl⟩ := decode_eq_ok_iff.1 hdecode
  rw [reservedClear, shiftRight_eq_zero_iff_lt] at hclear
  have hfits : decide (t10Fits (t10Operand w)) = true := decide_eq_true (t10Fits_t10Operand w)
  rcases opcode_cases (opField w) with h | h | h | h | h | h | h | h <;> rw [h] at hclear ⊢
  · exact ⟨rfl, rfl, congrArg some (h ▸ wordN_of_fields hclear)⟩
  · exact ⟨hfits, rfl, congrArg some (h ▸ wordE_of_fields hclear)⟩
  · exact ⟨rfl, rfl, congrArg some (h ▸ wordF_of_fields w)⟩
  · exact ⟨rfl, rfl, congrArg some (h ▸ wordN_of_fields hclear)⟩
  · exact ⟨hfits, rfl, congrArg some (h ▸ wordE_of_fields hclear)⟩
  · exact ⟨rfl, rfl, congrArg some (h ▸ wordC_of_fields hclear)⟩
  · exact ⟨rfl, rfl, congrArg some (h ▸ wordReserved_of_fields w)⟩
  · exact ⟨rfl, rfl, congrArg some (h ▸ wordReserved_of_fields w)⟩

/-- Settles O5: ten fixed words, each run through the decoder. -/
theorem listedWordsDecode : Obligations.ListedWordsDecode := by
  unfold Obligations.ListedWordsDecode
  decide

end Sys2Proof.Machine
end

section
/-! PROOFS. What an instruction does and what it leaves (`43_commands.md` R182 to R190, `10_state.md` R22 to R29): the
two instructions that read are split once by the answer of `FRAMEGEN`, and every statement goes through that split. -/

namespace Sys2Proof.Machine

/-! ### The cases of each instruction -/

/-- What `ENC` can do (`43_commands.md` R183). -/
theorem exec_enc_cases (s : State) (h : Byte) (c : Nibble) (t10 : Int) :
    (∃ F, frameGen s.params s.signPol s.clampEn h c t10 = .ok F ∧
      exec (.enc h c t10) s = .next { s with frame := F, fvalid := true, err := 0#3 }) ∨
    (∃ E, frameGen s.params s.signPol s.clampEn h c t10 = .error E ∧
      exec (.enc h c t10) s = .next { s with frame := zeroFrame, fvalid := false, err := E.code }) := by
  cases hF : frameGen s.params s.signPol s.clampEn h c t10 with
  | ok F => exact .inl ⟨F, rfl, exec_enc_of_ok hF⟩
  | error E => exact .inr ⟨E, rfl, exec_enc_of_error hF⟩

/-- What `ENCTX` can do (`43_commands.md` R186). -/
theorem exec_enctx_cases (s : State) (h : Byte) (c : Nibble) (t10 : Int) :
    (∃ F, frameGen s.params s.signPol s.clampEn h c t10 = .ok F ∧
      exec (.enctx h c t10) s =
        .next { s with frame := F, fvalid := true, done := false, busy := true, pos := 0#8, err := 0#3 }) ∨
    (∃ E, frameGen s.params s.signPol s.clampEn h c t10 = .error E ∧
      exec (.enctx h c t10) s =
        .next { s with frame := zeroFrame, fvalid := false, done := false, err := E.code }) := by
  cases hF : frameGen s.params s.signPol s.clampEn h c t10 with
  | ok F => exact .inl ⟨F, rfl, exec_enctx_of_ok hF⟩
  | error E => exact .inr ⟨E, rfl, exec_enctx_of_error hF⟩

/-- The codes `FRAMEGEN` reports are codes the block writes (`60_exceptions.md` R221, R222). -/
theorem code_mem_of_frameGen_error {q : Params} {sp ce : Bool} {h : Byte} {c : Nibble} {t : Int} {E : BlockError}
    (hE : frameGen q sp ce h c t = .error E) : E.code ∈ [0#3, 2#3, 3#3, 4#3, 5#3, 6#3] := by
  obtain ⟨-, hcode⟩ := raise_of_frameGen_error hE State.reset
  revert hcode
  generalize E.code = x
  revert x
  decide

/-! ### The statements about single instructions -/

/-- Settles O34: on a message both ways end in a transmission of it; on an error both have lost the frame. -/
theorem enctxIsEncThenTx : Obligations.EnctxIsEncThenTx := by
  intro s t h c t10 henc
  rcases exec_enc_cases s h c t10 with ⟨F, hF, hok⟩ | ⟨E, hE, herror⟩
  · cases hok.symm.trans henc
    refine ⟨fun hvalid => ?_, fun hinvalid => Bool.noConfusion hinvalid⟩
    exact (exec_enctx_of_ok hF).trans ((txStartsOrReportsNoFrame _).1 hvalid).symm
  · cases herror.symm.trans henc
    exact ⟨fun hvalid => Bool.noConfusion hvalid, fun _ => exec_enctx_of_error hE⟩

/-- Settles O35: `FRAMEGEN` reads the parameters and the configuration, which `ENC` leaves, so it answers the same
again; the other three write what they wrote. -/
theorem repeatedCommandIsHarmless : Obligations.RepeatedCommandIsHarmless := by
  intro i s t hharmless hexec
  cases i with
  | nop | ldf | cfgw => cases hexec; rfl
  | enc h c t10 =>
    rcases exec_enc_cases s h c t10 with ⟨F, hF, hok⟩ | ⟨E, hE, herror⟩
    · cases hok.symm.trans hexec
      exact exec_enc_of_ok hF
    · cases herror.symm.trans hexec
      exact exec_enc_of_error hE
  | tx | enctx | reserved110 | reserved111 | tick => exact hharmless.elim

/-- An instruction that goes to one state under both codes, with a code of the block in it, is not sticky. -/
theorem exec_err_irrelevant {i : Instr} {s u : State} {x : BitVec 3} (hother : exec i { s with err := x } = .next u)
    (hexec : exec i s = .next u) (hcode : u.err ∈ [0#3, 2#3, 3#3, 4#3, 5#3, 6#3]) :
    exec i { s with err := x } = exec i s ∧
      ∀ t, exec i s = .next t → t.err ∈ [0#3, 2#3, 3#3, 4#3, 5#3, 6#3] := by
  refine ⟨hother.trans hexec.symm, fun t ht => ?_⟩
  cases hexec.symm.trans ht
  exact hcode

/-- Settles O36: no command but `NOP` reads `ERR`, and each of them writes it. -/
theorem errIsNotSticky : Obligations.ErrIsNotSticky := by
  intro i s x hnop htick
  cases i with
  | nop => exact absurd rfl hnop
  | tick => exact absurd rfl htick
  | ldf | cfgw | reserved110 | reserved111 => exact exec_err_irrelevant rfl rfl (by simp)
  | tx =>
    rcases execTx_cases s with ⟨hvalid, htx⟩ | ⟨hinvalid, htx⟩
    · exact exec_err_irrelevant ((txStartsOrReportsNoFrame _).1 hvalid) htx (by simp)
    · exact exec_err_irrelevant ((txStartsOrReportsNoFrame _).2 hinvalid) htx (by simp)
  | enc h c t10 =>
    rcases exec_enc_cases s h c t10 with ⟨F, hF, hok⟩ | ⟨E, hE, herror⟩
    · exact exec_err_irrelevant (exec_enc_of_ok hF) hok (by simp)
    · exact exec_err_irrelevant (exec_enc_of_error hE) herror (code_mem_of_frameGen_error hE)
  | enctx h c t10 =>
    rcases exec_enctx_cases s h c t10 with ⟨F, hF, hok⟩ | ⟨E, hE, herror⟩
    · exact exec_err_irrelevant (exec_enctx_of_ok hF) hok (by simp)
    · exact exec_err_irrelevant (exec_enctx_of_error hE) herror (code_mem_of_frameGen_error hE)

/-- Settles O37: every case of an instruction is an update of the fields its rule writes. -/
theorem instructionFrame : Obligations.InstructionFrame := by
  intro i s t hexec
  cases i with
  | nop | cfgw | reserved110 | reserved111 | ldf => cases hexec; simp
  | enc h c t10 =>
    rcases exec_enc_cases s h c t10 with ⟨F, -, hcase⟩ | ⟨E, -, hcase⟩ <;> cases hcase.symm.trans hexec <;> simp
  | tx => rcases execTx_cases s with ⟨-, hcase⟩ | ⟨-, hcase⟩ <;> cases hcase.symm.trans hexec <;> simp
  | enctx h c t10 =>
    rcases exec_enctx_cases s h c t10 with ⟨F, -, hcase⟩ | ⟨E, -, hcase⟩ <;> cases hcase.symm.trans hexec <;> simp
  | tick => rcases execTick_cases s with ⟨-, hcase⟩ | ⟨-, hcase⟩ <;> cases hcase.symm.trans hexec <;> simp

/-- Beyond the stream the closed form is 0 (`43_commands.md` R190; log 5). -/
theorem bsBit_of_total_le {q : Params} {k : Nat} (hk : total q ≤ k) (F : Frame) : bsBit q F k = false := by
  rw [total] at hk
  have hread : readPrerom q k = none := List.getElem?_eq_none (by rw [← preLen]; omega)
  have hpast : ¬ k - preLen q < 128 := by omega
  rw [bsBit, hread]
  exact dif_neg hpast

/-- Settles O56: past the last bit the tick ends the transmission, and the bit it emits is 0. -/
theorem tickPastTheEndTakesLastBranch : Obligations.TickPastTheEndTakesLastBranch := by
  intro s hpast
  rw [exec_tick_of_last (by omega), bsBit_of_total_le hpast]

end Sys2Proof.Machine
end

section
/-! PROOFS. One edge, and who writes what at it (`43_commands.md` R180, `10_state.md` R22 to R27): the cases of an edge
that goes on to a given state are said once, and what an instruction leaves is taken from `instructionFrame`. -/

namespace Sys2Proof.Machine

/-! ### The edge and the step -/

/-- Every way from `s` to `t` in one edge: reset, the tick, an accepted instruction, an accepted word that is none, or
nothing (`43_commands.md` R180). -/
theorem stepEdge_next_cases {i : PortIn} {s t : State} (h : stepEdge i s = .next t) :
    (i.rst = true ∧ t = s.resetBlock) ∨
    (i.rst = false ∧ s.busy = true ∧ i.txEn = true ∧ exec .tick s = .next t) ∨
    (i.rst = false ∧ s.busy = false ∧ i.cmdValid = true ∧ ∃ k, decode i.cmd = .ok k ∧ exec k s = .next t) ∨
    (i.rst = false ∧ s.busy = false ∧ i.cmdValid = true ∧ t = { s with err := 6#3 }) ∨
    (i.rst = false ∧ ¬ (s.busy = true ∧ i.txEn = true) ∧ t = s) := by
  rcases stepEdge_cases i s with ⟨hrst, hedge⟩ | ⟨hrst, hbusy, hen, hedge⟩ | ⟨hrst, _, hen, hedge⟩ |
      ⟨hrst, hidle, hvalid, hedge⟩ | ⟨hrst, hidle, _, hedge⟩ <;> rw [h] at hedge
  · cases hedge
    exact .inl ⟨hrst, rfl⟩
  · exact .inr (.inl ⟨hrst, hbusy, hen, hedge.symm⟩)
  · cases hedge
    exact .inr (.inr (.inr (.inr ⟨hrst, by simp [hen], rfl⟩)))
  · rcases acceptWord_cases i.cmd s with ⟨k, hdecode, haccept⟩ | ⟨_, _, haccept⟩ <;> rw [haccept] at hedge
    · exact .inr (.inr (.inl ⟨hrst, hidle, hvalid, k, hdecode, hedge.symm⟩))
    · cases hedge
      exact .inr (.inr (.inr (.inl ⟨hrst, hidle, hvalid, rfl⟩)))
  · cases hedge
    exact .inr (.inr (.inr (.inr ⟨hrst, by simp [hidle], rfl⟩)))

/-- No word is the serializer tick (`30_encoding.md` R73). -/
theorem ne_tick_of_decode {w : CmdWord} {k : Instr} (h : decode w = .ok k) : k ≠ .tick := by
  rintro rfl
  obtain ⟨-, hcommand, -⟩ := encodeInvertsDecode w .tick h
  cases hcommand

/-- Settles O41: every arm of the edge has a next state. -/
theorem blockNeverHalts : Obligations.BlockNeverHalts := by
  intro s
  change ∃ t, stepEdge (nextInput s) s.popInput = .next t
  rcases stepEdge_cases (nextInput s) s.popInput with ⟨-, h⟩ | ⟨-, -, -, h⟩ | ⟨-, -, -, h⟩ | ⟨-, -, -, h⟩ | ⟨-, -, -, h⟩
  · exact ⟨_, h⟩
  · exact ⟨_, h⟩
  · exact ⟨_, h⟩
  · rcases acceptWord_cases (nextInput s).cmd s.popInput with ⟨k, -, haccept⟩ | ⟨_, -, haccept⟩
    · obtain ⟨t, hexec⟩ := exec_next k s.popInput
      exact ⟨t, h.trans (haccept.trans hexec)⟩
    · exact ⟨_, h.trans haccept⟩
  · exact ⟨_, h⟩

/-- Settles O39: both functions branch on the list of samples alone. -/
theorem sampleIsTakenOnce : Obligations.SampleIsTakenOnce := by
  refine fun s => ⟨fun i rest hins => ⟨?_, State.popInput_cons hins⟩, fun hnone => ⟨?_, ?_⟩⟩
  · rw [nextInput, hins]
  · rw [nextInput, hnone]
  · rw [State.popInput, hnone]

/-! ### The word the host places -/

theorem step_presentWord {w : CmdWord} {k : Instr} (h : decode w = .ok k) (s : State) :
    step (s.presentWord w) = exec k { s with busy := false, pos := 0#8, inputs := s.inputs.tail } :=
  (step_cons rfl).trans ((stepEdge_of_command rfl rfl rfl).trans (acceptWord_of_ok h _))

theorem step_presentTick (s : State) :
    step s.presentTick = exec .tick { s with busy := true, inputs := s.inputs.tail } :=
  (step_cons rfl).trans (stepEdge_of_tick rfl rfl rfl)

/-- A row of the table is the tick's, without bits, or a word that decodes. -/
theorem decodeTableWord_eq_some {nbits w : Nat} {i : Instr} (h : decodeTableWord nbits w = some i) :
    (nbits = 0 ∧ i = .tick) ∨ (nbits ≠ 0 ∧ decode (BitVec.ofNat 67 (tableWord nbits w)) = .ok i) := by
  unfold decodeTableWord at h
  split at h
  · next hbits =>
    cases h
    exact .inl ⟨hbits, rfl⟩
  · next hbits =>
    split at h
    · refine .inr ⟨hbits, ?_⟩
      cases hdecode : decode (BitVec.ofNat 67 (tableWord nbits w)) <;> rw [hdecode] at h <;> cases h
      rfl
    · cases h

/-- Settles O40: the placed sample is the next one, and the block stands so that its arm is the command's or the
tick's. -/
theorem placedWordRunsNext : Obligations.PlacedWordRunsNext := by
  intro s nbits w i hrow
  rcases decodeTableWord_eq_some hrow with ⟨hbits, rfl⟩ | ⟨hbits, hdecode⟩
  · refine ⟨fun hcommand => Bool.noConfusion hcommand, fun _ => ?_⟩
    rw [State.withFetchWord, if_pos hbits]
    exact step_presentTick s
  · refine ⟨fun _ => ?_, fun htick => absurd htick (ne_tick_of_decode hdecode)⟩
    rw [State.withFetchWord, if_neg hbits]
    exact step_presentWord hdecode s

/-! ### The frame registers, the configuration and the parameters -/

theorem frame_ext {F G : Frame} (h : ∀ k : Fin 8, F[k] = G[k]) : F = G :=
  Vector.ext fun k hk => h ⟨k, hk⟩

/-- Settles O45: an edge that is neither reset nor one of the three commands leaves every frame register. -/
theorem frameWriters : Obligations.FrameWriters := by
  intro s t i hedge hne
  rcases stepEdge_next_cases hedge with ⟨hrst, -⟩ | ⟨-, -, -, hexec⟩ | ⟨-, hidle, hvalid, k, hdecode, hexec⟩ |
      ⟨-, -, -, rfl⟩ | ⟨-, -, rfl⟩
  · exact .inl hrst
  · obtain ⟨-, -, -, -, ⟨hkept, -⟩, -⟩ := instructionFrame .tick s t hexec
    exact absurd (frame_ext hkept) hne
  · obtain ⟨-, -, -, -, hkept, -⟩ := instructionFrame k s t hexec
    cases k with
    | enc | enctx | ldf => exact .inr ⟨hidle, hvalid, _, hdecode, trivial⟩
    | nop | tx | cfgw | reserved110 | reserved111 | tick => exact absurd (frame_ext hkept.1) hne
  · exact absurd rfl hne
  · exact absurd rfl hne

/-- Settles O46: an edge that is neither reset nor `CFGW` leaves both fields; `CFGW` writes its operands. -/
theorem configurationWriters : Obligations.ConfigurationWriters := by
  intro s t i hedge hne
  have hchanged : ¬ (t.signPol = s.signPol ∧ t.clampEn = s.clampEn) := fun ⟨hsign, hclamp⟩ =>
    hne.elim (absurd hsign) (absurd hclamp)
  rcases stepEdge_next_cases hedge with ⟨hrst, -⟩ | ⟨-, -, -, hexec⟩ | ⟨-, hidle, hvalid, k, hdecode, hexec⟩ |
      ⟨-, -, -, rfl⟩ | ⟨-, -, rfl⟩
  · exact .inl hrst
  · obtain ⟨-, -, -, hkept, -⟩ := instructionFrame .tick s t hexec
    exact absurd hkept hchanged
  · obtain ⟨-, -, -, hkept, -⟩ := instructionFrame k s t hexec
    cases k with
    | cfgw sp ce =>
      cases hexec
      exact .inr ⟨hidle, hvalid, hdecode⟩
    | nop | enc | ldf | tx | enctx | reserved110 | reserved111 | tick => exact absurd hkept hchanged
  · exact absurd ⟨rfl, rfl⟩ hchanged
  · exact absurd ⟨rfl, rfl⟩ hchanged

theorem stepEdge_params {i : PortIn} {s t : State} (h : stepEdge i s = .next t) : t.params = s.params := by
  rcases stepEdge_next_cases h with ⟨-, rfl⟩ | ⟨-, -, -, hexec⟩ | ⟨-, -, -, k, -, hexec⟩ | ⟨-, -, -, rfl⟩ |
      ⟨-, -, rfl⟩
  · exact s.resetBlock_params
  · exact (instructionFrame .tick s t hexec).1
  · exact (instructionFrame k s t hexec).1
  · rfl
  · rfl

/-- Settles O48: neither the edge nor taking the sample touches them. -/
theorem parametersNeverChange : Obligations.ParametersNeverChange := fun s _ hstep =>
  (stepEdge_params hstep).trans s.popInput_params

/-! ### The flags and `POS` -/

/-- `BUSY` rises only where `TX` or `ENCTX` starts a transmission (`10_state.md` R24). -/
theorem exec_busy_rises {k : Instr} {s t : State} (hexec : exec k s = .next t) (hidle : s.busy = false)
    (hbusy : t.busy = true) :
    t.fvalid = true ∧ t.pos = 0#8 ∧ t.err = 0#3 ∧ t.done = false ∧ (k = .tx ∨ ∃ h c t10, k = .enctx h c t10) := by
  have hrise : t.busy ≠ s.busy := by rw [hidle, hbusy]; exact Bool.noConfusion
  obtain ⟨-, -, -, -, -, hkept, -⟩ := instructionFrame k s t hexec
  cases k with
  | tx =>
    rcases execTx_cases s with ⟨hvalid, hcase⟩ | ⟨-, hcase⟩ <;> cases hcase.symm.trans hexec
    · exact ⟨hvalid, rfl, rfl, rfl, .inl rfl⟩
    · exact absurd rfl hrise
  | enctx h c t10 =>
    rcases exec_enctx_cases s h c t10 with ⟨F, -, hcase⟩ | ⟨E, -, hcase⟩ <;> cases hcase.symm.trans hexec
    · exact ⟨rfl, rfl, rfl, rfl, .inr ⟨h, c, t10, rfl⟩⟩
    · exact absurd rfl hrise
  | tick =>
    rcases execTick_cases s with ⟨-, hcase⟩ | ⟨-, hcase⟩ <;> cases hcase.symm.trans hexec
    · cases hbusy
    · exact absurd rfl hrise
  | nop | enc | ldf | cfgw | reserved110 | reserved111 => exact absurd hkept.1 hrise

/-- No command sets `DONE`; the tick does at the last bit (`10_state.md` R25). -/
theorem exec_done_rises {k : Instr} {s t : State} (hexec : exec k s = .next t) (hclear : s.done = false)
    (hdone : t.done = true) : k = .tick ∧ total s.params - 1 ≤ s.pos.toNat := by
  have hrise : t.done ≠ s.done := by rw [hclear, hdone]; exact Bool.noConfusion
  obtain ⟨-, -, -, -, -, hkept, -⟩ := instructionFrame k s t hexec
  cases k with
  | tx => rcases execTx_cases s with ⟨-, hcase⟩ | ⟨-, hcase⟩ <;> cases hcase.symm.trans hexec <;> cases hdone
  | enctx h c t10 =>
    rcases exec_enctx_cases s h c t10 with ⟨F, -, hcase⟩ | ⟨E, -, hcase⟩ <;> cases hcase.symm.trans hexec <;>
      cases hdone
  | tick =>
    rcases execTick_cases s with ⟨hlast, -⟩ | ⟨-, hcase⟩
    · exact ⟨rfl, hlast⟩
    · cases hcase.symm.trans hexec
      exact absurd rfl hrise
  | nop | enc | ldf | cfgw | reserved110 | reserved111 => exact absurd hkept.2.1 hrise

/-- `POS` under an instruction (`10_state.md` R23). -/
theorem exec_pos_cases {k : Instr} {s t : State} (hexec : exec k s = .next t) :
    t.pos = s.pos ∨ t.pos = 0#8 ∨ (t.pos = s.pos + 1#8 ∧ k = .tick) := by
  obtain ⟨-, -, -, -, -, hkept, -⟩ := instructionFrame k s t hexec
  cases k with
  | tx =>
    rcases execTx_cases s with ⟨-, hcase⟩ | ⟨-, hcase⟩ <;> cases hcase.symm.trans hexec
    · exact .inr (.inl rfl)
    · exact .inl rfl
  | enctx h c t10 =>
    rcases exec_enctx_cases s h c t10 with ⟨F, -, hcase⟩ | ⟨E, -, hcase⟩ <;> cases hcase.symm.trans hexec
    · exact .inr (.inl rfl)
    · exact .inl rfl
  | tick =>
    rcases execTick_cases s with ⟨-, hcase⟩ | ⟨-, hcase⟩ <;> cases hcase.symm.trans hexec
    · exact .inr (.inl rfl)
    · exact .inr (.inr ⟨rfl, rfl⟩)
  | nop | enc | ldf | cfgw | reserved110 | reserved111 => exact .inl hkept.2.2

/-- Settles O47, over the ways of one edge: only an instruction moves a flag up or `POS` away from 0, and which one is
said by the lemma on that flag. -/
theorem flagWriters : Obligations.FlagWriters := by
  intro s t i hedge
  rcases stepEdge_next_cases hedge with ⟨-, rfl⟩ | ⟨hrst, hbusy, hen, hexec⟩ |
      ⟨hrst, hidle, hvalid, k, hdecode, hexec⟩ | ⟨-, -, -, rfl⟩ | ⟨-, -, rfl⟩
  · simp
  · obtain ⟨-, -, -, -, ⟨-, hfvalid⟩, -⟩ := instructionFrame .tick s t hexec
    refine ⟨fun hidle => ?_, fun hclear hdone => ?_, fun hinvalid hset => ?_, ?_⟩
    · rw [hbusy] at hidle; cases hidle
    · exact ⟨hrst, hbusy, hen, (exec_done_rises hexec hclear hdone).2⟩
    · rw [hfvalid, hinvalid] at hset; cases hset
    · exact (exec_pos_cases hexec).imp_right (Or.imp_right fun ⟨hnext, _⟩ => ⟨hnext, hrst, hbusy, hen⟩)
  · have hcommand := ne_tick_of_decode hdecode
    refine ⟨fun _ hrise => ?_, fun hclear hdone => ?_, fun hinvalid hset => ?_, ?_⟩
    · obtain ⟨hset, hpos, herr, hdone, rfl | ⟨h, c, t10, rfl⟩⟩ := exec_busy_rises hexec hidle hrise
      · exact ⟨hrst, hvalid, hset, hpos, herr, hdone, _, hdecode, trivial⟩
      · exact ⟨hrst, hvalid, hset, hpos, herr, hdone, _, hdecode, trivial⟩
    · exact absurd (exec_done_rises hexec hclear hdone).1 hcommand
    · refine ⟨hrst, hidle, hvalid, k, hdecode, ?_⟩
      obtain ⟨-, -, -, -, hkept, -⟩ := instructionFrame k s t hexec
      have hrise : t.fvalid ≠ s.fvalid := by rw [hset, hinvalid]; exact Bool.noConfusion
      cases k with
      | enc | enctx | ldf => trivial
      | nop | tx | cfgw | reserved110 | reserved111 | tick => exact absurd hkept.2 hrise
    · exact (exec_pos_cases hexec).imp_right (Or.imp_right fun ⟨_, htick⟩ => absurd htick hcommand)
  · simp +contextual
  · simp +contextual

/-! ### The emitted trace -/

theorem exec_tick_trace {s t : State} (hexec : exec .tick s = .next t) :
    t.trace = s.trace ++ [bsBit s.params s.frame s.pos.toNat] := by
  rcases execTick_cases s with ⟨-, hcase⟩ | ⟨-, hcase⟩ <;> cases hcase.symm.trans hexec <;> rfl

theorem exec_command_trace {k : Instr} {s t : State} (hcommand : k ≠ .tick) (hexec : exec k s = .next t) :
    t.trace = s.trace := by
  obtain ⟨-, -, -, -, -, -, hkept⟩ := instructionFrame k s t hexec
  cases k with
  | tick => exact absurd rfl hcommand
  | nop => exact hkept.2
  | enc | ldf | tx | enctx | cfgw | reserved110 | reserved111 => exact hkept

/-- Settles O49: the tick emits the stream bit, which is `tx_bit` while `BUSY = 1`; nothing else emits. -/
theorem traceIsSampledTxBit : Obligations.TraceIsSampledTxBit := by
  intro s t i hedge
  change t.trace = s.trace ++ if i.rst = false ∧ s.busy = true ∧ i.txEn = true then [txBit s] else []
  rcases stepEdge_next_cases hedge with ⟨hrst, rfl⟩ | ⟨hrst, hbusy, hen, hexec⟩ | ⟨-, hidle, -, k, hdecode, hexec⟩ |
      ⟨-, hidle, -, rfl⟩ | ⟨-, hquiet, rfl⟩
  · simp [hrst]
  · rw [if_pos ⟨hrst, hbusy, hen⟩, txBit_of_busy hbusy, exec_tick_trace hexec]
  · simp [hidle, exec_command_trace (ne_tick_of_decode hdecode) hexec]
  · simp [hidle]
  · rw [if_neg fun h => hquiet h.2, List.append_nil]

end Sys2Proof.Machine
end

section
/-! PROOFS. The frame codec as a whole (`41_frame_codec.md` R128, R131, R136; `40_temperature_digits.md` R107): which
check fails first, the checksum byte of a message, and the vector of the rules. -/

namespace Sys2Proof.Machine

/-- Settles O12: left to right by the cases of `FRAMEGEN`, right to left by the equation of each check. -/
theorem frameGenReportsFirstFailedCheck : Obligations.FrameGenReportsFirstFailedCheck := by
  intro q sp ce h c t10 E
  constructor
  · intro hE
    rcases frameGen_cases q sp ce h c t10 with ⟨hrange, hcase⟩ | ⟨ht, ⟨_, hsel, hcase⟩ |
        ⟨sel, hsel, ⟨_, hoff, hcase⟩ | ⟨_, _, hcase⟩⟩⟩ <;> cases hE.symm.trans hcase
    · exact .inl ⟨hrange, rfl⟩
    · rw [integerTemp_natAbs] at hsel ⊢
      exact .inr (.inl ⟨ht, rfl, fun sel => by rw [hsel]; exact nofun⟩)
    · rw [integerTemp_natAbs] at hsel
      exact .inr (.inr ⟨ht, ⟨sel, hsel⟩, rfl, fun off => by rw [hoff]; exact nofun⟩)
  · rintro (⟨hrange, rfl⟩ | ⟨ht, rfl, hsel⟩ | ⟨ht, ⟨sel, hsel⟩, rfl, hoff⟩)
    · exact frameGen_of_outOfRange hrange q sp ce h c
    · cases hanswer : selectM q ce (t10.tdiv 10) with
      | error E => exact frameGen_of_selectM_error ht hanswer sp h c
      | ok sel => exact absurd hanswer (hsel sel)
    · cases hanswer : houseOffset q h with
      | error E => exact frameGen_of_houseOffset_error ht hsel hanswer sp c
      | ok off => exact absurd hanswer (hoff off)

theorem toNat_signNibble_le (neg sp : Bool) : (signNibble neg sp).toNat ≤ 8 := by
  revert neg sp; decide

theorem toNat_laneSum (bs : List Byte) :
    (laneSum bs).toNat = (bs.map fun b => (hi b).toNat + (lo b).toNat).sum % 256 :=
  BitVec.toNat_ofNat _ _

/-- Settles O14: bytes 0 and 1 give 30, and above them stand four nibbles of any value, three digits and the sign:
`30 + 4 * 15 + 3 * 9 + 8 = 125`. -/
theorem checksumRecomputes : Obligations.ChecksumRecomputes := by
  intro q sp ce h c t10 F hF
  obtain ⟨ht, _, _, _, _, _, hmsg⟩ := frameGen_eq_ok hF
  obtain ⟨_, _, _, _, _, hnibbles⟩ := messageNibbles q sp ce h c t10 F hF
  obtain ⟨h0, h0', h1, h1', -, -, -, -, hlow, hmid, hhigh, hsign, -⟩ := hnibbles _ _ rfl rfl
  have hmarker : (hi F[0]).toNat + (lo F[0]).toNat + (hi F[1]).toNat + (lo F[1]).toNat = 30 := by
    rw [h0, h0', h1, h1']; rfl
  have hchannel := (hi F[2]).isLt
  have hhouse := (lo F[2]).isLt
  have hhouse' := (hi F[3]).isLt
  have hr12 := (lo F[3]).isLt
  have hdigits : (hi F[4]).toNat + (lo F[4]).toNat + (hi F[5]).toNat ≤ 27 := by omega
  clear hlow hmid hhigh
  have hsign' : (lo F[5]).toNat ≤ 8 := by rw [hsign]; exact toNat_signNibble_le _ _
  refine ⟨by rw [hmsg]; rfl, ?_⟩
  rw [toNat_laneSum]
  simp only [List.map_cons, List.map_nil, List.sum_cons, List.sum_nil]
  omega

/-- Settles O15: the bytes of this message that no table enters, and the sum of the nibbles before the checksum byte,
64 without the two that are left open. -/
theorem goldenVectorForAnyTables : Obligations.GoldenVectorForAnyTables := by
  intro q sp ce F hF
  obtain ⟨_, _, _, _, _, _, hmsg⟩ := frameGen_eq_ok hF
  obtain ⟨_, _, _, _, _, hnibbles⟩ := messageNibbles q sp ce 247#8 1#4 209 F hF
  obtain ⟨-, -, -, -, -, -, -, -, -, -, -, hsign, hcheckHi, hcheckLo, -⟩ := hnibbles _ _ rfl rfl
  have h0 : F[0] = 0xEC#8 := by rw [hmsg]; rfl
  have h1 : F[1] = 0x40#8 := by rw [hmsg]; rfl
  have h2 : F[2] = 0x17#8 := by rw [hmsg]; rfl
  have h3 : hi F[3] = 0xF#4 := by rw [hmsg]; exact hi_pack (hi 247#8) _
  have h4 : F[4] = 0x90#8 := by rw [hmsg]; rfl
  have h5 : hi F[5] = 0x2#4 := by rw [hmsg]; exact hi_pack (bcdNibble (bcdHigh 209)) _
  have hbyte := toNat_pack (hi F[6]) (lo F[6])
  rw [pack_hi_lo] at hbyte
  have hr12 := (lo F[3]).isLt
  have hs := (lo F[5]).isLt
  refine ⟨h0, h1, h2, h3, h4, h5, ?_, ?_⟩
  · rw [hsign]
    cases sp <;> rfl
  · rw [hbyte, hcheckHi, hcheckLo, h0, h1, h2, h3, h4, h5]
    simp only [toNat_hi, toNat_lo, BitVec.toNat_ofNat]
    simp only [toNat_lo] at hr12 hs
    omega

/-- The quotient without its sign (`40_temperature_digits.md` R102). -/
theorem natAbs_integerTemp (a : Nat) (neg : Bool) : (integerTemp a neg).natAbs = a / 10 := by
  unfold integerTemp
  split <;> omega

/-- Settles O8: both views are quotients and remainders of the magnitude by 10 and 100. -/
theorem digitViewsAgree : Obligations.DigitViewsAgree := by
  intro t10 ht
  have hmag : magnitude t10 ≤ 999 := ht
  rw [natAbs_integerTemp, val_decimalDigit]
  have hlow := bcdLow_le (magnitude t10)
  have hmid := bcdMid_le (magnitude t10)
  have hhigh := bcdHigh_le hmag
  refine ⟨?_, rfl, rfl, ?_, ?_, hlow, hmid, hhigh, ?_⟩
  · omega
  · rw [bcdHigh]
    omega
  · omega
  · rw [bcdHigh, bcdMid, bcdLow]
    omega

end Sys2Proof.Machine
end

section
/-! PROOFS. The bitstream as a whole (`42_bitstream_encoder.md` R157, R159, R160; `30_encoding.md` R85): the order on
the wire, the closed form, the inverse, and the balance of the line code. -/

namespace Sys2Proof.Machine

/-! ### Bits of a byte -/

theorem getLsbD_hi (b : Byte) {j : Nat} (hj : j < 4) : (hi b).getLsbD j = b.getLsbD (4 + j) := by
  simp [hi, hj]

theorem getLsbD_lo (b : Byte) {j : Nat} (hj : j < 4) : (lo b).getLsbD j = b.getLsbD j := by
  simp [lo, hj]

/-- A reflected byte is sent as its two nibbles as written, each least significant bit first. -/
theorem expand_reflect (b : Byte) :
    expand (reflect b) =
      [hi b, lo b].flatMap fun n => [n.getLsbD 0, n.getLsbD 1, n.getLsbD 2, n.getLsbD 3] := by
  simp only [expand, List.flatMap_cons, List.flatMap_nil, List.cons_append, List.nil_append, getLsbD_reflect,
    logicalBit, getLsbD_hi, getLsbD_lo, Nat.reduceLT, Nat.reduceAdd, Nat.reduceSub, if_true, if_false]

/-- Settles O18, byte by byte. -/
theorem wireOrderOfNibbles : Obligations.WireOrderOfNibbles := by
  intro F
  rw [List.flatMap_assoc, logical]
  simp only [expand_reflect]

/-! ### The closed form -/

theorem length_bitstream (q : Params) (F : Frame) : (bitstream q F).length = total q := by
  rw [bitstream, List.length_append, length_payload, total, preLen]

/-- Settles O19. -/
theorem closedFormIsStreamBit : Obligations.ClosedFormIsStreamBit := fun q F =>
  ⟨length_bitstream q F, fun _ hk => getElem?_bitstream q F hk⟩

/-! ### The inverse -/

/-- The second symbol of a pair is the logical bit (`42_bitstream_encoder.md` R154, R160). -/
theorem secondSymbols_flatMap_manch (l : List Bool) : secondSymbols (l.flatMap manch) = l := by
  induction l with
  | nil => rfl
  | cons b l ih => exact congrArg (b :: ·) ih

theorem byteOfBits_expand (r : Byte) : byteOfBits (expand r) = r := by
  apply BitVec.eq_of_getLsbD_eq
  intro j hj
  rw [byteOfBits, BitVec.getLsbD_setWidth, BitVec.getLsbD_ofBoolListLE, List.getD_eq_getElem?_getD,
    getElem?_expand r hj]
  simp [hj]

/-- Undoing stage by stage: pairs, groups of eight, reflection. -/
theorem frameOfPayload_payload (F : Frame) : frameOfPayload (payload F) = F := by
  apply frame_ext
  intro k
  have hbyte : (frameOfPayload (payload F))[k] =
      reflect (byteOfBits (((secondSymbols (payload F)).drop (8 * k.val)).take 8)) := Vector.getElem_ofFn _
  rw [hbyte, payload, secondSymbols_flatMap_manch, take_drop_logical, byteOfBits_expand, reflect_reflect]

/-- Settles O20: a mapping with a left inverse is injective. -/
theorem payloadCanBeUndone : Obligations.PayloadCanBeUndone :=
  ⟨frameOfPayload_payload, fun _ _ h => Function.LeftInverse.injective frameOfPayload_payload h⟩

/-! ### The balance of the line code -/

/-- Pair `m` of a payload is logical bit `m`, complement first. -/
theorem payload_pair (F : Frame) {m : Nat} (hm : m < 64) :
    ∃ b, (payload F)[2 * m]? = some (!b) ∧ (payload F)[2 * m + 1]? = some b := by
  have hsymbol (j : Nat) (hj : j < 2) := getElem?_flatMap_of_length_eq (f := manch) (fun _ => rfl) hj (logical F) m
  rw [getElem?_logical F hm] at hsymbol
  exact ⟨_, hsymbol 0 (by decide), hsymbol 1 (by decide)⟩

theorem payload_pair_ne (F : Frame) {m : Nat} (hm : m < 64) : (payload F)[2 * m]? ≠ (payload F)[2 * m + 1]? := by
  obtain ⟨b, hfirst, hsecond⟩ := payload_pair F hm
  rw [hfirst, hsecond]
  cases b <;> decide

theorem count_true_flatMap_manch (l : List Bool) : (l.flatMap manch).count true = l.length := by
  induction l with
  | nil => rfl
  | cons b l ih => cases b <;> simp [manch, ih]

/-- Settles O21: of three bits in a row two are a pair, whose symbols differ; each of the 64 pairs has one 1. -/
theorem payloadIsBalanced : Obligations.PayloadIsBalanced := by
  refine fun F => ⟨length_payload F, fun m hm => payload_pair F hm, fun k hk ⟨hfirst, hsecond⟩ => ?_, ?_⟩
  · obtain ⟨m, rfl | rfl⟩ := Nat.even_or_odd' k
    · exact payload_pair_ne F (by omega) hfirst
    · exact payload_pair_ne F (m := m + 1) (by omega) hsecond
  · rw [payload, count_true_flatMap_manch, length_logical]

end Sys2Proof.Machine
end

section
/-! PROOFS. The invariants (a) to (g) of `10_state.md` R35: an idle state and a starting transmission meet them by
few facts each, an instruction goes from one to the other, and the tick moves inside a transmission. -/

namespace Sys2Proof.Machine

/-! ### What an idle state and a starting one have to show -/

theorem safeState_of_idle {s : State} (hwf : s.params.wf) (hidle : s.busy = false) (hpos : s.pos = 0#8)
    (hzero : s.fvalid = false → s.frame = zeroFrame) (herr : s.err ∈ [0#3, 2#3, 3#3, 4#3, 5#3, 6#3]) :
    SafeState s where
  paramsWf := hwf
  busyFvalid hbusy := absurd hbusy (Bool.eq_false_iff.1 hidle)
  idlePos _ := hpos
  busyPos hbusy := absurd hbusy (Bool.eq_false_iff.1 hidle)
  notBoth hboth := absurd hboth.1 (Bool.eq_false_iff.1 hidle)
  invalidZero := hzero
  errWritten := herr
  busyNoError hbusy := absurd hbusy (Bool.eq_false_iff.1 hidle)

theorem safeState_of_start {s : State} (hwf : s.params.wf) (hbusy : s.busy = true) (hvalid : s.fvalid = true)
    (hpos : s.pos = 0#8) (herr : s.err = 0#3) (hdone : s.done = false) : SafeState s where
  paramsWf := hwf
  busyFvalid _ := hvalid
  idlePos hidle := absurd hbusy (Bool.eq_false_iff.1 hidle)
  busyPos _ := by
    have := total_ge s.params
    rw [hpos, BitVec.toNat_ofNat]
    omega
  notBoth hboth := absurd hboth.2 (Bool.eq_false_iff.1 hdone)
  invalidZero hinvalid := absurd hvalid (Bool.eq_false_iff.1 hinvalid)
  errWritten := by simp [herr]
  busyNoError _ := herr

theorem safeState_resetBlock {s : State} (hwf : s.params.wf) : SafeState s.resetBlock :=
  safeState_of_idle hwf rfl rfl (fun _ => rfl) (by simp)

/-- Settles O50: reset writes an idle state without a frame; the OPEN parameters have the legal form. -/
theorem resetMeetsInvariants : Obligations.ResetMeetsInvariants :=
  ⟨safeState_of_idle Config.params_wf rfl rfl (fun _ => rfl) (by decide), fun _ => safeState_resetBlock⟩

/-! ### Preservation -/

/-- Only a valid frame can be other than zero, under every instruction (`10_state.md` R35 (e)). -/
theorem exec_keeps_invalidZero {k : Instr} {s t : State} (hexec : exec k s = .next t)
    (hzero : s.fvalid = false → s.frame = zeroFrame) (hinvalid : t.fvalid = false) : t.frame = zeroFrame := by
  obtain ⟨-, -, -, -, hkept, -⟩ := instructionFrame k s t hexec
  cases k with
  | enc h c t10 =>
    rcases exec_enc_cases s h c t10 with ⟨F, -, hcase⟩ | ⟨E, -, hcase⟩ <;> cases hcase.symm.trans hexec
    · cases hinvalid
    · rfl
  | enctx h c t10 =>
    rcases exec_enctx_cases s h c t10 with ⟨F, -, hcase⟩ | ⟨E, -, hcase⟩ <;> cases hcase.symm.trans hexec
    · cases hinvalid
    · rfl
  | ldf =>
    cases hexec
    cases hinvalid
  | nop | tx | cfgw | reserved110 | reserved111 | tick =>
    exact (frame_ext hkept.1).trans (hzero (hkept.2.symm.trans hinvalid))

/-- Every command leaves a code of the block in `ERR` (`10_state.md` R29). -/
theorem exec_keeps_errWritten {k : Instr} {s t : State} (hexec : exec k s = .next t) (hcommand : k ≠ .tick)
    (herr : s.err ∈ [0#3, 2#3, 3#3, 4#3, 5#3, 6#3]) : t.err ∈ [0#3, 2#3, 3#3, 4#3, 5#3, 6#3] := by
  by_cases hnop : k = .nop
  · subst hnop
    cases hexec
    exact herr
  · exact (errIsNotSticky k s 0#3 hnop hcommand).2 t hexec

/-- A command from an idle block starts a transmission or leaves the block idle. -/
theorem safeState_exec_command {k : Instr} {s t : State} (hs : SafeState s) (hidle : s.busy = false)
    (hcommand : k ≠ .tick) (hexec : exec k s = .next t) : SafeState t := by
  have hwf : t.params.wf := by
    rw [(instructionFrame k s t hexec).1]
    exact hs.paramsWf
  cases hbusy : t.busy with
  | true =>
    obtain ⟨hvalid, hpos, herr, hdone, -⟩ := exec_busy_rises hexec hidle hbusy
    exact safeState_of_start hwf hbusy hvalid hpos herr hdone
  | false =>
    have hpos : t.pos = 0#8 := by
      rcases exec_pos_cases hexec with hkept | hzero | ⟨-, htick⟩
      · exact hkept.trans (hs.idlePos hidle)
      · exact hzero
      · exact absurd htick hcommand
    exact safeState_of_idle hwf hbusy hpos (exec_keeps_invalidZero hexec hs.invalidZero)
      (exec_keeps_errWritten hexec hcommand hs.errWritten)

/-- `POS` does not wrap inside a transmission, since `TOTAL` is at most 255 (`00_scope.md` R6). -/
theorem toNat_pos_succ {s : State} (hwf : s.params.wf) (hbefore : s.pos.toNat < total s.params - 1) :
    (s.pos + 1#8).toNat = s.pos.toNat + 1 := by
  have := total_le hwf
  rw [BitVec.toNat_add, BitVec.toNat_ofNat]
  omega

/-- The tick ends the transmission or goes to the next bit of it. -/
theorem safeState_exec_tick {s t : State} (hs : SafeState s) (hbusy : s.busy = true) (hexec : exec .tick s = .next t) :
    SafeState t := by
  rcases execTick_cases s with ⟨-, hcase⟩ | ⟨hbefore, hcase⟩ <;> cases hcase.symm.trans hexec
  · exact safeState_of_idle hs.paramsWf rfl rfl hs.invalidZero hs.errWritten
  · exact {
      paramsWf := hs.paramsWf
      busyFvalid := hs.busyFvalid
      idlePos := fun hidle => absurd hbusy (Bool.eq_false_iff.1 hidle)
      busyPos := fun _ => by
        change (s.pos + 1#8).toNat < total s.params
        rw [toNat_pos_succ hs.paramsWf hbefore]
        omega
      notBoth := hs.notBoth
      invalidZero := hs.invalidZero
      errWritten := hs.errWritten
      busyNoError := hs.busyNoError }

theorem safeState_stepEdge {i : PortIn} {s t : State} (hs : SafeState s) (hedge : stepEdge i s = .next t) :
    SafeState t := by
  rcases stepEdge_next_cases hedge with ⟨-, rfl⟩ | ⟨-, hbusy, -, hexec⟩ | ⟨-, hidle, -, k, hdecode, hexec⟩ |
      ⟨-, hidle, -, rfl⟩ | ⟨-, -, rfl⟩
  · exact safeState_resetBlock hs.paramsWf
  · exact safeState_exec_tick hs hbusy hexec
  · exact safeState_exec_command hs hidle (ne_tick_of_decode hdecode) hexec
  · exact safeState_of_idle hs.paramsWf hidle (hs.idlePos hidle) hs.invalidZero (by simp)
  · exact hs

/-- No invariant speaks of the samples, so taking one keeps them all. -/
theorem safeState_popInput {s : State} (hs : SafeState s) : SafeState s.popInput where
  paramsWf := by simpa only [State.popInput_params] using hs.paramsWf
  busyFvalid := by simpa only [State.popInput_busy, State.popInput_fvalid] using hs.busyFvalid
  idlePos := by simpa only [State.popInput_busy, State.popInput_pos] using hs.idlePos
  busyPos := by simpa only [State.popInput_busy, State.popInput_pos, State.popInput_params] using hs.busyPos
  notBoth := by simpa only [State.popInput_busy, State.popInput_done] using hs.notBoth
  invalidZero := by simpa only [State.popInput_fvalid, State.popInput_frame] using hs.invalidZero
  errWritten := by simpa only [State.popInput_err] using hs.errWritten
  busyNoError := by simpa only [State.popInput_busy, State.popInput_err] using hs.busyNoError

/-- Settles O51: the step is the edge of the sample taken. -/
theorem stepKeepsInvariants : Obligations.StepKeepsInvariants := fun _ _ hs hstep =>
  safeState_stepEdge (safeState_popInput hs) hstep

/-! ### Runs -/

/-- What every step keeps holds after any run. -/
theorem run_induction {P : State → Prop} (hkeep : ∀ s t, P s → step s = .next t → P t) {k : Nat} {s t : State}
    (hs : P s) (hrun : run k s = .next t) : P t := by
  induction k generalizing s with
  | zero =>
    cases hrun
    exact hs
  | succ k ih =>
    obtain ⟨u, hstep⟩ := blockNeverHalts s
    rw [run_succ hstep] at hrun
    exact ih (hkeep s u hs hstep) hrun

/-- Settles O52: R35 holds after reset and every step keeps it; claim 5 is R35 (a) at the ports. -/
theorem reachedStatesAreSafe : Obligations.ReachedStatesAreSafe := by
  intro s t k hwf hrun
  have hsafe : SafeState t := run_induction stepKeepsInvariants (safeState_resetBlock hwf) hrun
  exact ⟨hsafe, hsafe.busyFvalid⟩

end Sys2Proof.Machine
end

section
/-! PROOFS. Transmissions (`43_commands.md` R191, R196): a run over given samples is taken one edge at a time; each
tick takes one bit off the rest of the stream, and every other edge leaves the block as it is. -/

namespace Sys2Proof.Machine

theorem run_cons {s t : State} {i : PortIn} {rest : List PortIn} (hins : s.inputs = i :: rest)
    (hedge : stepEdge i { s with inputs := rest } = .next t) (k : Nat) : run (k + 1) s = run k t :=
  run_succ ((step_cons hins).trans hedge)

/-! ### The rest of the stream -/

theorem drop_bitstream (q : Params) (F : Frame) {k : Nat} (hk : k < total q) :
    (bitstream q F).drop k = bsBit q F k :: (bitstream q F).drop (k + 1) := by
  have hlt : k < (bitstream q F).length := by rwa [length_bitstream]
  have hbit : (bitstream q F)[k] = bsBit q F k :=
    Option.some.inj ((List.getElem?_eq_getElem hlt).symm.trans (getElem?_bitstream q F hk))
  rw [List.drop_eq_getElem_cons hlt, hbit]

theorem drop_bitstream_last (q : Params) (F : Frame) {k : Nat} (hk : k = total q - 1) :
    (bitstream q F).drop k = [bsBit q F k] := by
  have hpos := total_ge q
  rw [drop_bitstream q F (by omega), List.drop_eq_nil_of_le (by rw [length_bitstream]; omega)]

/-! ### Samples that end at a tick -/

theorem getLast?_txEn_of_cons {i : PortIn} {ins : List PortIn}
    (hlast : ∀ j, (i :: ins).getLast? = some j → j.txEn = true) :
    ∀ j, ins.getLast? = some j → j.txEn = true := fun j hj =>
  hlast j (by rw [List.getLast?_cons, hj]; rfl)

/-- Samples that end at a tick, without a tick, are none. -/
theorem eq_nil_of_no_tick {ins : List PortIn} (hlast : ∀ j, ins.getLast? = some j → j.txEn = true)
    (hcount : ins.countP (fun i => i.txEn) = 0) : ins = [] := by
  by_contra hne
  exact List.countP_eq_zero.1 hcount _ (List.getLast_mem hne) (hlast _ (List.getLast?_eq_some_getLast hne))

section
variable {s : State} {i : PortIn} {ins : List PortIn} (hins : s.inputs = i :: ins) (hrst : i.rst = false)
  (hbusy : s.busy = true)
include hins hrst hbusy

/-- A stall: the sample is taken and nothing else happens. -/
theorem run_cons_of_stall (hen : i.txEn = false) (k : Nat) : run (k + 1) s = run k { s with inputs := ins } :=
  run_cons hins (stepEdge_of_hold hrst hbusy hen) k

/-- A tick before the last bit: one bit is emitted and the transmission goes on with the next. -/
theorem run_cons_of_tick (hen : i.txEn = true) (hbefore : s.pos.toNat < total s.params - 1) (k : Nat) :
    run (k + 1) s = run k { s with pos := s.pos + 1#8, inputs := ins,
                                   trace := s.trace ++ [bsBit s.params s.frame s.pos.toNat] } :=
  run_cons hins ((stepEdge_of_tick (s := { s with inputs := ins }) hrst hbusy hen).trans
    (exec_tick_of_not_last hbefore)) k

/-- The tick at the last bit: it is emitted, and the block is idle and done. -/
theorem run_cons_of_last_tick (hen : i.txEn = true) (hlast : total s.params - 1 ≤ s.pos.toNat) (k : Nat) :
    run (k + 1) s = run k { s with busy := false, done := true, pos := 0#8, inputs := ins,
                                   trace := s.trace ++ [bsBit s.params s.frame s.pos.toNat] } :=
  run_cons hins ((stepEdge_of_tick (s := { s with inputs := ins }) hrst hbusy hen).trans
    (exec_tick_of_last hlast)) k

end

/-- Settles O53, sample by sample: a stall changes nothing, a tick before the last bit emits it and goes on, and the
tick at the last bit is the last sample. -/
theorem busyRunEmitsRestOfStream : Obligations.BusyRunEmitsRestOfStream := by
  intro s ins rest hwf hbusy hpos hins hrst hcount hlast
  induction ins generalizing s with
  | nil =>
    rw [List.countP_nil] at hcount
    omega
  | cons i ins ih =>
    obtain ⟨hirst, hrsts⟩ := List.forall_mem_cons.1 hrst
    have hlasts := getLast?_txEn_of_cons hlast
    cases hen : i.txEn with
    | false =>
      rw [List.countP_cons_of_neg (by simp [hen])] at hcount
      rw [List.length_cons, run_cons_of_stall hins hirst hbusy hen]
      exact ih { s with inputs := ins ++ rest } hwf hbusy hpos rfl hrsts hcount hlasts
    | true =>
      have hleft : ins.countP (fun i => i.txEn) + 1 = total s.params - s.pos.toNat :=
        (List.countP_cons_of_pos hen).symm.trans hcount
      by_cases hbefore : s.pos.toNat < total s.params - 1
      · have hnext := toNat_pos_succ hwf hbefore
        have hstream : s.trace ++ (bitstream s.params s.frame).drop s.pos.toNat =
            (s.trace ++ [bsBit s.params s.frame s.pos.toNat]) ++
              (bitstream s.params s.frame).drop (s.pos + 1#8).toNat := by
          rw [drop_bitstream _ _ hpos, hnext, List.append_assoc, List.singleton_append]
        rw [List.length_cons, run_cons_of_tick hins hirst hbusy hen hbefore, hstream]
        refine ih { s with
          pos := s.pos + 1#8, inputs := ins ++ rest,
          trace := s.trace ++ [bsBit s.params s.frame s.pos.toNat] } hwf hbusy ?_ rfl hrsts ?_ hlasts
        · change (s.pos + 1#8).toNat < total s.params
          omega
        · change _ = total s.params - (s.pos + 1#8).toNat
          omega
      · have hend : s.pos.toNat = total s.params - 1 := by omega
        have hnone : ins.countP (fun i => i.txEn) = 0 := by omega
        obtain rfl := eq_nil_of_no_tick hlasts hnone
        rw [drop_bitstream_last _ _ hend]
        exact run_cons_of_last_tick hins hirst hbusy hen hend.ge 0

/-! ### From the word of `ENCTX` on -/

theorem decode_wordE_enctx {t10 : Int} (ht : t10Fits t10) (h : Byte) (c : Nibble) :
    decode (wordE 0b100#3 h c t10) = .ok (.enctx h c t10) := by
  obtain ⟨w, hencode, hdecode⟩ := decodeInvertsEncode (.enctx h c t10) (decide_eq_true ht) rfl
  cases hencode
  exact hdecode

/-- The edge at which an idle block accepts `ENCTX`. -/
theorem stepEdge_enctx {s : State} {t10 : Int} (hidle : s.busy = false) (ht : t10Fits t10) (h : Byte) (c : Nibble)
    (en : Bool) : stepEdge (commandEdge (wordE 0b100#3 h c t10) en) s = exec (.enctx h c t10) s :=
  (stepEdge_of_command rfl hidle rfl).trans (acceptWord_of_ok (decode_wordE_enctx ht h c) s)

/-- Settles O54: the accepted `ENCTX` starts at bit 0, where the rest of the stream is all of it. -/
theorem enctxTransmitsItsMessage : Obligations.EnctxTransmitsItsMessage := by
  intro s h c t10 en F ins rest hwf hidle hF hins hrst hcount hlast
  obtain ⟨hrange, -⟩ := frameGen_eq_ok hF
  have hedge := (stepEdge_enctx (s := { s with inputs := ins ++ rest }) (t10 := t10) hidle
    (by rw [t10Fits]; omega) h c en).trans (exec_enctx_of_ok hF)
  rw [Nat.add_comm, run_cons hins hedge]
  have htotal := total_ge s.params
  exact busyRunEmitsRestOfStream _ ins rest hwf rfl (Nat.lt_of_lt_of_le (Nat.zero_lt_succ 127) htotal) rfl hrst hcount
    hlast

/-- An idle block without a command stays as it is, strobe or not. -/
theorem run_of_no_command {ins rest : List PortIn} (hquiet : ∀ i ∈ ins, i.rst = false ∧ i.cmdValid = false)
    {s : State} (hidle : s.busy = false) (hins : s.inputs = ins ++ rest) :
    run ins.length s = .next { s with inputs := rest } := by
  induction ins generalizing s with
  | nil =>
    obtain rfl : s.inputs = rest := hins
    exact run_zero s
  | cons i ins ih =>
    obtain ⟨⟨hrst, hcmd⟩, hquiets⟩ := List.forall_mem_cons.1 hquiet
    rw [List.length_cons, run_cons hins (stepEdge_of_no_command hrst hidle hcmd)]
    exact ih (s := { s with inputs := ins ++ rest }) hquiets hidle rfl

/-- Settles O55: the failing `ENCTX` leaves the block idle, and so it stays. -/
theorem failedEnctxStaysSilent : Obligations.FailedEnctxStaysSilent := by
  intro s h c t10 en E ins rest hidle ht hE hins hquiet
  have hedge := (stepEdge_enctx (s := { s with inputs := ins ++ rest }) hidle ht h c en).trans
    (exec_enctx_of_error hE)
  rw [Nat.add_comm, run_cons hins hedge]
  exact run_of_no_command hquiet hidle rfl

end Sys2Proof.Machine
end
